-- ==== Sys2Proof/Word.lean ====
section
/-! DEFINITION. The widths of the block's values: 8-bit cells, payloads and image bytes (R9), the 16-bit
transaction word and its 4-bit fields (R61), and host paths. -/

namespace Sys2Proof

/-- An 8-bit value: a register cell's value, a payload, an image byte (R9, R44). -/
abbrev Byte := BitVec 8

/-- A 4-bit field of the transaction word: `op` or `idx` (R61). -/
abbrev Nibble := BitVec 4

/-- The 16-bit transaction word (R61). -/
abbrev Word := BitVec 16

/-- A host path (R22): an operand of `LOAD` that travels beside the word (R71). -/
abbrev Path := String

end Sys2Proof
end

