-- ==== Sys2Proof/Config.lean ====
section
/-! DEFINITION. What is fixed when the block is constructed: its personality and the spec's named parameters
(00_scope.md section 5), the constants the source settles, and the closed sets of names the spec uses (modes,
roles, destinations). Nothing here changes during a run (R17, R180). -/

namespace Sys2Proof

/-- `PERSONALITY`: which peripheral is attached to the controller (R17). -/
inductive Personality where
  | disk
  | output
  deriving DecidableEq, Repr

/-- `READ_SAMPLE`: whether a CPU read samples its cell before or after the read destination runs (R90). -/
inductive ReadSample where
  | beforeHandler
  | afterHandler
  deriving DecidableEq, Repr

/-- The five modes of the DISK personality (R20). -/
inductive Mode where
  | data
  | seek
  | byteN
  | sectorN
  | ctrl
  deriving DecidableEq, Repr

/-- The roles of R163: who may present an operation at the block's boundary. -/
inductive Role where
  | cpu
  | host
  | timer
  | device
  | construction
  deriving DecidableEq, Repr

/-- The destinations of R73, as a `BINDW` or `BINDR` word names them. -/
inductive Dest where
  | diskDataWrite
  | diskModeSelect
  | diskDataRead
  deriving DecidableEq, Repr

/-- The write destinations a register index can be bound to (R16, R80). -/
inductive WriteDest where
  | diskDataWrite
  | diskModeSelect
  deriving DecidableEq, Repr

/-- The read destinations a register index can be bound to (R16, R81). -/
inductive ReadDest where
  | diskDataRead
  deriving DecidableEq, Repr

/-- The parameters of one block (00_scope.md section 5), fixed at construction. -/
structure Config where
  /-- `PERSONALITY` (R17). -/
  personality : Personality
  /-- `READ_SAMPLE` (R90, D7). -/
  readSample : ReadSample
  /-- `LOAD_CLEARS_DEAD` (R122, R124, D14). -/
  loadClearsDead : Bool
  /-- `RESET_READY` (R14, D11). -/
  resetReady : Bool
  /-- `RESET_FLAG` (R15, D11). -/
  resetFlag : Bool
  /-- `INITIAL_POWER`: `true` is on (R23, D21). -/
  initialPower : Bool
  /-- `INITIAL_INTERVAL_K` (R24, D21). -/
  initialIntervalK : BitVec 2
  deriving DecidableEq, Repr

/-- The spec's own parameter values (00_scope.md section 5) for a block of personality `p`.
DESIGN CHOICE: `INITIAL_INTERVAL_K` is OPEN in the spec and is 0 here (assumption 2). -/
def Config.standard (p : Personality) : Config where
  personality := p
  readSample := .beforeHandler
  loadClearsDead := false
  resetReady := false
  resetFlag := true
  initialPower := false
  initialIntervalK := 0

/-- `NUM_REGS`: the number of register cells (R10). -/
abbrev numRegs : Nat := 2

/-- `IMAGE_SIZE`: the number of image bytes (R18). -/
abbrev imageSize : Nat := 65536

/-- `POS_MAX`: the largest value of the cursor, the post-increment sentinel (R19). -/
abbrev posMax : Nat := 65536

/-- `SYNC_CODE`: the CTRL command that syncs (R69). -/
abbrev syncCode : Byte := 0x69

/-- `DEAD_VALUE`: what `die()` leaves in both cells (R120). -/
abbrev deadValue : Byte := 0xFF

end Sys2Proof
end

