-- ==== Sys2Proof/Syntax.lean ====
section
/-! DEFINITION. The operations of the block: one constructor per row of spec/opcode_table.json. The first thirteen
and the last four are the operations of R62 and R71; the rows between them are the mode-dependent forms of `WR` and
`RD` that R76 lists for the DISK personality. -/

namespace Sys2Proof

/-- One operation at the block's boundary. -/
inductive Instr where
  /-- `WR idx, val`: CPU register write (R89). -/
  | wr (idx : Nibble) (val : Byte)
  /-- `RD idx`: CPU register read (R90). -/
  | rd (idx : Nibble)
  /-- `RDY`: the CPU reads the ready bit (R91). -/
  | rdy
  /-- `RFL`: the CPU reads the flag bit (R92). -/
  | rflag
  /-- `CLF`: the CPU clears the flag bit (R93). -/
  | clf
  /-- `BINDW idx, dest`: bind a write destination (R80). -/
  | bindw (idx : Nibble) (dest : Dest)
  /-- `BINDR idx, dest`: bind a read destination (R81). -/
  | bindr (idx : Nibble) (dest : Dest)
  /-- `SETDATA val`: the device writes the shared data register (R83). -/
  | setData (val : Byte)
  /-- `GETDATA`: the device reads the shared data register (R84). -/
  | getData
  /-- `SETRDY`: the device raises ready (R85). -/
  | setRdy
  /-- `UNSETRDY`: the device lowers ready (R86). -/
  | unsetRdy
  /-- `SETFLG`: the device raises the flag (R87). -/
  | setFlg
  /-- `GETFLG`: the device reads the flag (R88). -/
  | getFlg
  /-- `SEL DATA`, that is `WR 1, 0x00` on DISK (R104). -/
  | selData
  /-- `SEL SEEK`, that is `WR 1, 0x0A` on DISK (R105). -/
  | selSeek
  /-- `SEL BYTE_N`, that is `WR 1, 0x0B` on DISK (R106). -/
  | selByteN
  /-- `SEL SECTOR_N`, that is `WR 1, 0x0C` on DISK (R107). -/
  | selSectorN
  /-- `SEL CTRL`, that is `WR 1, 0x0F` on DISK (R108). -/
  | selCtrl
  /-- `WR 1, code` on DISK with a code that names no mode (R109). -/
  | selInvalid (code : Byte)
  /-- `WR 0, val` on DISK in DATA mode (R110). -/
  | wr0Data (val : Byte)
  /-- `WR 0, val` on DISK in SEEK mode (R111). -/
  | wr0Seek (val : Byte)
  /-- `WR 0, val` on DISK in BYTE_N mode (R112). -/
  | wr0ByteN (val : Byte)
  /-- `WR 0, val` on DISK in SECTOR_N mode (R113). -/
  | wr0SectorN (val : Byte)
  /-- `WR 0, val` on DISK in CTRL mode (R114). -/
  | wr0Ctrl (val : Byte)
  /-- `RD 0` on DISK in DATA mode (R115). -/
  | rd0Data
  /-- `RD 0` on DISK outside DATA mode (R116). -/
  | rd0NotData
  /-- `RD 1` on DISK (R117). -/
  | rd1
  /-- `LOAD "path"`: the host loads the image (R122). -/
  | load (path : Path)
  /-- `PWR`: the host toggles the power (R142). -/
  | pwr
  /-- `IVL k`: the host selects the poll interval (R143). -/
  | ivl (k : Byte)
  /-- `TICK`: one tick of the poll timer (R141). -/
  | tick
  deriving DecidableEq, Repr

end Sys2Proof
end

