-- ==== Sys2Proof/WellFormed.lean ====
section
/-! DEFINITION. The operand values that `Instr` can hold and the spec gives no operation: an `IVL` interval above 3
(R74) and a `SEL.INVALID` code that does name a mode (R66). Every other operand of `Instr` has exactly its field's
width. -/

namespace Sys2Proof

/-- The five mode selector codes of R66. -/
def isModeCode (code : Byte) : Bool :=
  code == 0x00 || code == 0x0A || code == 0x0B || code == 0x0C || code == 0x0F

/-- The operands are ones some word of R61 to R75 spells for this operation. -/
def Instr.wellFormed : Instr → Bool
  | .ivl k => k.toNat < 4
  | .selInvalid code => !isModeCode code
  | .wr _ _ | .rd _ | .rdy | .rflag | .clf | .bindw _ _ | .bindr _ _ | .setData _ | .getData
  | .setRdy | .unsetRdy | .setFlg | .getFlg | .selData | .selSeek | .selByteN | .selSectorN
  | .selCtrl | .wr0Data _ | .wr0Seek _ | .wr0ByteN _ | .wr0SectorN _ | .wr0Ctrl _ | .rd0Data
  | .rd0NotData | .rd1 | .load _ | .pwr | .tick => true

end Sys2Proof
end

