-- ==== Sys2Proof/Decode.lean ====
section
/-! DEFINITION. From the 16-bit transaction word to an operation (R61 to R75), the choice of the mode-dependent row
(R76), the encoder written from the same tables, the roles of R62 and R71, and the assembler forms of R77 and R78. -/

namespace Sys2Proof

/-- Why a word spells no operation: the reserved words of R74. -/
inductive Reject where
  /-- `op` 0x0 or 0xE. -/
  | reservedOp
  /-- A field marked "must be 0" is not 0 (R65). -/
  | nonzeroField
  /-- A host-group word with `idx` 4 to 15 (R71). -/
  | reservedHostOp
  /-- An `IVL` word with `val` 4 to 255 (R71). -/
  | reservedInterval
  /-- A `BINDW` or `BINDR` word with a reserved destination id (R73). -/
  | reservedDestination
  deriving DecidableEq, Repr

/-- `word[15:12]` (R61). -/
def opField (w : Word) : Nibble := w.extractLsb' 12 4

/-- `word[11:8]` (R61). -/
def idxField (w : Word) : Nibble := w.extractLsb' 8 4

/-- `word[7:0]` (R61). -/
def valField (w : Word) : Byte := w.extractLsb' 0 8

/-- The word with the three fields of R61. -/
def mkWord (op idx : Nibble) (val : Byte) : Word := op ++ idx ++ val

/-- `resolveMode` (R103): the five codes of R66, compared on all 8 bits; `none` is `INVALID`. -/
def resolveMode (code : Byte) : Option Mode :=
  if code = 0x00 then some .data
  else if code = 0x0A then some .seek
  else if code = 0x0B then some .byteN
  else if code = 0x0C then some .sectorN
  else if code = 0x0F then some .ctrl
  else none

/-- The selector code of each mode (R66). -/
def modeCode : Mode → Byte
  | .data => 0x00
  | .seek => 0x0A
  | .byteN => 0x0B
  | .sectorN => 0x0C
  | .ctrl => 0x0F

/-- The destination a `val` names (R73). -/
def destOfId (val : Byte) : Option Dest :=
  if val = 0x01 then some .diskDataWrite
  else if val = 0x02 then some .diskModeSelect
  else if val = 0x03 then some .diskDataRead
  else none

/-- The destination ids of R73. -/
def destId : Dest → Byte
  | .diskDataWrite => 0x01
  | .diskModeSelect => 0x02
  | .diskDataRead => 0x03

/-- An operation whose `idx` and `val` must both be 0 (R62, R65). -/
def decodeBare (idx : Nibble) (val : Byte) (i : Instr) : Except Reject Instr :=
  if idx = 0 ∧ val = 0 then .ok i else .error .nonzeroField

/-- An operation whose `val` must be 0 (R62, R71). -/
def decodeNoVal (val : Byte) (i : Instr) : Except Reject Instr :=
  if val = 0 then .ok i else .error .nonzeroField

/-- A binding word, whose `val` is a destination id (R73). -/
def decodeBind (val : Byte) (f : Dest → Instr) : Except Reject Instr :=
  match destOfId val with
  | some d => .ok (f d)
  | none => .error .reservedDestination

/-- The host group, `op = 0xF` (R71). -/
def decodeHost (idx : Nibble) (val : Byte) (path : Path) : Except Reject Instr :=
  if idx = 0x0 then decodeNoVal val (.load path)
  else if idx = 0x1 then decodeNoVal val .pwr
  else if idx = 0x2 then
    if val.toNat < 4 then .ok (.ivl val) else .error .reservedInterval
  else if idx = 0x3 then decodeNoVal val .tick
  else .error .reservedHostOp

/-- The decoder of R61 to R75: total on every word; `path` is the operand that travels beside the word and that only
`LOAD` uses (R71). -/
def decode (w : Word) (path : Path) : Except Reject Instr :=
  match (opField w).toNat with
  | 0x1 => .ok (.wr (idxField w) (valField w))
  | 0x2 => decodeNoVal (valField w) (.rd (idxField w))
  | 0x3 => decodeBare (idxField w) (valField w) .rdy
  | 0x4 => decodeBare (idxField w) (valField w) .rflag
  | 0x5 => decodeBare (idxField w) (valField w) .clf
  | 0x6 => decodeBind (valField w) (.bindw (idxField w))
  | 0x7 => decodeBind (valField w) (.bindr (idxField w))
  | 0x8 => if idxField w = 0 then .ok (.setData (valField w)) else .error .nonzeroField
  | 0x9 => decodeBare (idxField w) (valField w) .getData
  | 0xA => decodeBare (idxField w) (valField w) .setRdy
  | 0xB => decodeBare (idxField w) (valField w) .unsetRdy
  | 0xC => decodeBare (idxField w) (valField w) .setFlg
  | 0xD => decodeBare (idxField w) (valField w) .getFlg
  | 0xF => decodeHost (idxField w) (valField w) path
  | _ => .error .reservedOp

/-- The row a `WR 1, code` is on DISK (R76, first two lines). -/
def selectMode1 (code : Byte) : Instr :=
  match resolveMode code with
  | some .data => .selData
  | some .seek => .selSeek
  | some .byteN => .selByteN
  | some .sectorN => .selSectorN
  | some .ctrl => .selCtrl
  | none => .selInvalid code

/-- The row a `WR 0, val` is on DISK in mode `m` (R76). -/
def selectData0 (m : Mode) (val : Byte) : Instr :=
  match m with
  | .data => .wr0Data val
  | .seek => .wr0Seek val
  | .byteN => .wr0ByteN val
  | .sectorN => .wr0SectorN val
  | .ctrl => .wr0Ctrl val

/-- The row a `RD 0` is on DISK in mode `m` (R76). -/
def selectRead0 (m : Mode) : Instr :=
  match m with
  | .data => .rd0Data
  | .seek | .byteN | .sectorN | .ctrl => .rd0NotData

/-- R76: on DISK a `WR` or `RD` of register 0 or 1 is the row that `idx`, `val` and the mode select. The first argument
is the mode where the DISK rows apply and `none` where they do not (an OUTPUT block). -/
def selectRow (disk : Option Mode) (i : Instr) : Instr :=
  match disk with
  | none => i
  | some m =>
    match i with
    | .wr idx val =>
      if idx = 0 then selectData0 m val else if idx = 1 then selectMode1 val else .wr idx val
    | .rd idx => if idx = 0 then selectRead0 m else if idx = 1 then .rd1 else .rd idx
    | j => j

/-- The whole decoding of a word: R61 to R75, then R76. -/
def decodeIn (disk : Option Mode) (w : Word) (path : Path) : Except Reject Instr :=
  match decode w path with
  | .ok i => .ok (selectRow disk i)
  | .error e => .error e

/-- The encoder, from the tables of R62, R66, R71, R73 and R76. -/
def encode : Instr → Word
  | .wr idx val => mkWord 0x1 idx val
  | .rd idx => mkWord 0x2 idx 0
  | .rdy => mkWord 0x3 0 0
  | .rflag => mkWord 0x4 0 0
  | .clf => mkWord 0x5 0 0
  | .bindw idx d => mkWord 0x6 idx (destId d)
  | .bindr idx d => mkWord 0x7 idx (destId d)
  | .setData val => mkWord 0x8 0 val
  | .getData => mkWord 0x9 0 0
  | .setRdy => mkWord 0xA 0 0
  | .unsetRdy => mkWord 0xB 0 0
  | .setFlg => mkWord 0xC 0 0
  | .getFlg => mkWord 0xD 0 0
  | .selData => mkWord 0x1 1 0x00
  | .selSeek => mkWord 0x1 1 0x0A
  | .selByteN => mkWord 0x1 1 0x0B
  | .selSectorN => mkWord 0x1 1 0x0C
  | .selCtrl => mkWord 0x1 1 0x0F
  | .selInvalid code => mkWord 0x1 1 code
  | .wr0Data val => mkWord 0x1 0 val
  | .wr0Seek val => mkWord 0x1 0 val
  | .wr0ByteN val => mkWord 0x1 0 val
  | .wr0SectorN val => mkWord 0x1 0 val
  | .wr0Ctrl val => mkWord 0x1 0 val
  | .rd0Data => mkWord 0x2 0 0
  | .rd0NotData => mkWord 0x2 0 0
  | .rd1 => mkWord 0x2 1 0
  | .load _ => mkWord 0xF 0 0
  | .pwr => mkWord 0xF 1 0
  | .ivl k => mkWord 0xF 2 k
  | .tick => mkWord 0xF 3 0

/-- The operand of an operation that travels beside its word: the path of `LOAD` (R71); the empty path for every
other operation, which has none. -/
def pathOperand : Instr → Path
  | .load p => p
  | _ => ""

/-- The rows of R76 that the state condition of spec/opcode_table.json admits: `disk` is as in `selectRow`. The plain
`WR` and `RD` rows stand for the words no DISK row claims. -/
def rowApplies (disk : Option Mode) : Instr → Bool
  | .wr idx _ => disk.isNone || decide (2 ≤ idx.toNat)
  | .rd idx => disk.isNone || decide (2 ≤ idx.toNat)
  | .selData | .selSeek | .selByteN | .selSectorN | .selCtrl | .selInvalid _ | .rd1 => disk.isSome
  | .wr0Data _ | .rd0Data => disk == some .data
  | .wr0Seek _ => disk == some .seek
  | .wr0ByteN _ => disk == some .byteN
  | .wr0SectorN _ => disk == some .sectorN
  | .wr0Ctrl _ => disk == some .ctrl
  | .rd0NotData => disk.isSome && disk != some .data
  | _ => true

/-- The role that may issue each operation (R62, R71, R163). -/
def roleOf : Instr → Role
  | .wr _ _ | .rd _ | .rdy | .rflag | .clf => .cpu
  | .selData | .selSeek | .selByteN | .selSectorN | .selCtrl | .selInvalid _ => .cpu
  | .wr0Data _ | .wr0Seek _ | .wr0ByteN _ | .wr0SectorN _ | .wr0Ctrl _ => .cpu
  | .rd0Data | .rd0NotData | .rd1 => .cpu
  | .bindw _ _ | .bindr _ _ => .construction
  | .setData _ | .getData | .setRdy | .unsetRdy | .setFlg | .getFlg => .device
  | .load _ | .pwr | .ivl _ => .host
  | .tick => .timer

/-- The instruction this decoder reads from a table row's word: a word of at most 16 bits, decoded as the block does right
after reset, that is a DISK block in DATA mode (assumptions 1 and 9), with the empty path beside it. -/
def decodeTableWord (nbits w : Nat) : Option Instr :=
  if nbits ≤ 16 ∧ w < 2 ^ 16 then
    match decodeIn (some .data) (BitVec.ofNat 16 w) "" with
    | .ok i => some i
    | .error _ => none
  else none

/-- The pseudo-instructions of R78. -/
inductive Pseudo where
  /-- `SEL <mode>`. -/
  | sel (m : Mode)
  /-- `PUT <v>`. -/
  | put (v : Byte)
  /-- `GET`. -/
  | get
  /-- `SEEK <o>`, `o` in -128 to 127. -/
  | seek (o : Int)
  /-- `GOTO <p>`, `p` in 0 to 65535. -/
  | goto (p : Nat)
  /-- `SYNC`. -/
  | sync
  deriving DecidableEq, Repr

/-- The operand ranges of R78. -/
def pseudoInRange : Pseudo → Bool
  | .seek o => decide (-128 ≤ o) && decide (o ≤ 127)
  | .goto p => decide (p ≤ 65535)
  | .sel _ | .put _ | .get | .sync => true

/-- The expansions of R78. -/
def expandPseudo : Pseudo → List Instr
  | .sel m => [.wr 1 (modeCode m)]
  | .put v => [.wr 0 v]
  | .get => [.rd 0]
  | .seek o => [.wr 1 (modeCode .seek), .wr 0 (BitVec.ofInt 8 o)]
  | .goto p =>
    [.wr 1 (modeCode .byteN), .wr 0 (BitVec.ofNat 8 p),
     .wr 1 (modeCode .sectorN), .wr 0 (BitVec.ofNat 8 (p >>> 8))]
  | .sync => [.wr 1 (modeCode .ctrl), .wr 0 syncCode]

/-- The names of the destinations in the assembler syntax of R77. -/
def destName : Dest → String
  | .diskDataWrite => "DiskDataWrite"
  | .diskModeSelect => "DiskModeSelect"
  | .diskDataRead => "DiskDataRead"

/-- A `WR` line of R77, numbers in decimal. -/
def asmWr (idx val : Nat) : String := "WR " ++ toString idx ++ ", " ++ toString val

/-- The assembler line of an operation (R77), numbers in decimal; a mode-dependent row is written as the `WR` or `RD` it
is a form of. -/
def asmLine : Instr → String
  | .wr idx val => asmWr idx.toNat val.toNat
  | .rd idx => "RD " ++ toString idx.toNat
  | .rdy => "RDY"
  | .rflag => "RFL"
  | .clf => "CLF"
  | .bindw idx d => "BINDW " ++ toString idx.toNat ++ ", " ++ destName d
  | .bindr idx d => "BINDR " ++ toString idx.toNat ++ ", " ++ destName d
  | .setData val => "SETDATA " ++ toString val.toNat
  | .getData => "GETDATA"
  | .setRdy => "SETRDY"
  | .unsetRdy => "UNSETRDY"
  | .setFlg => "SETFLG"
  | .getFlg => "GETFLG"
  | .selData => asmWr 1 0x00
  | .selSeek => asmWr 1 0x0A
  | .selByteN => asmWr 1 0x0B
  | .selSectorN => asmWr 1 0x0C
  | .selCtrl => asmWr 1 0x0F
  | .selInvalid code => asmWr 1 code.toNat
  | .wr0Data val | .wr0Seek val | .wr0ByteN val | .wr0SectorN val | .wr0Ctrl val => asmWr 0 val.toNat
  | .rd0Data | .rd0NotData => "RD 0"
  | .rd1 => "RD 1"
  | .load p => "LOAD \"" ++ p ++ "\""
  | .pwr => "PWR"
  | .ivl k => "IVL " ++ toString k.toNat
  | .tick => "TICK"

end Sys2Proof
end

