-- ==== Sys2Proof/Machine/State.lean ====
section
/-! DEFINITION. The architectural state of the block (10_state.md), the outcomes of a step that are not a next state
(60_exceptions.md), and the state right after reset (R180). State is plain data. -/

namespace Sys2Proof.Machine

/-- A register cell (R10): it holds an 8-bit value, or it is the spec's own cell state `⊥`, unwritten. `⊥` is the reset
value that R11 and R180 give, and reading it is the model fault MF1 that R155 names. Assumption 3 is this Lean form. -/
inductive Cell where
  | unwritten
  | holds (v : Byte)
  deriving DecidableEq, Repr

/-- What the fault record holds once a step has ended in an I/O fault or a model fault (R26, R154, R155): the code and its
info. -/
inductive FaultRecord where
  | io1
  | io2
  | mf1 (index : Nat)
  | mf2 (index : Nat)
  | mf3 (position : Nat)
  | mf4 (mode : Mode)
  | mf5 (position : Nat)
  deriving DecidableEq, Repr

/-- The inputs the block does not admit (R157): no step happens. Each is safe: the model does nothing. -/
inductive Refusal where
  /-- The instruction has no meaning yet; no arm of this model answers it. Safe. -/
  | notModelled (mnemonic : String)
  /-- RF1: an operand outside its width (R64, R157). Raised at the port and by an `IVL` above 3. Safe. -/
  | rf1
  /-- RF2: a reserved transaction word, with the reason the decoder gives (R74, R157). Raised at the port. Safe. -/
  | rf2 (reason : Reject)
  /-- RF3: a binding that CFG2, CFG3 or CFG4 rejects (R82, R157). Raised by `BINDW` and `BINDR`. Safe. -/
  | rf3
  /-- RF4: an operation presented by a role that may not issue it, or a host or timer operation of the other personality
  (R71, R163, R157). Raised at the port and by `LOAD`, `PWR`, `IVL`, `TICK`. Safe. -/
  | rf4
  /-- RF5: a binding after construction (CFG1 of R82, R157). Raised by `BINDW` and `BINDR`. Safe. -/
  | rf5
  /-- A request said to belong to the handshake encoder, which is absent (D30, U15). Raised at the port. Safe. -/
  | encoderAbsent
  deriving DecidableEq, Repr

/-- Bytes at addresses, in the canonical form of `Memory.wf`: addresses strictly rising, all below `imageSize`, no entry
equal to 0, which is what an unlisted image byte reads as (R18). -/
abbrev Memory := List Host.Cell

/-- The environment's answers to the file requests of one step (R6, R28): a draw. -/
structure Draw where
  /-- The answer to `FileRead`: the file's bytes, or `none` for failure. -/
  fileRead : Option (List Byte)
  /-- The answer to `FileWrite`: whether it succeeded. -/
  fileWriteOk : Bool
  deriving DecidableEq, Repr

/-- A file request of the block that the host file store has answered with success (R6, R28). -/
inductive FileRequest where
  /-- `FileRead(path)`. -/
  | read (path : Path)
  /-- `FileWrite(path, Img[0] .. Img[65535])`: `image` holds the bytes written, file byte `k` being byte `k` (R43). -/
  | write (path : Path) (image : Memory)
  deriving DecidableEq, Repr

/-- What an operation hands back to whoever issued it (R9 `return`). -/
inductive Reply where
  | byte (v : Byte)
  | bit (b : Bool)
  deriving DecidableEq, Repr

/-- How an operation is presented at the boundary: as a word (R61), as integers for its fields (R64, the port that takes a
wider integer), or as a request said to belong to the handshake encoder (D30). -/
inductive Form where
  | word (w : Word)
  | fields (op : Nibble) (idx val : Nat)
  | encoder (request : List Byte)
  deriving DecidableEq, Repr

/-- One operation an agent presents: the role presenting it (R163), its form, the path beside the word (R71) and the
environment's answers for the file request it may make (R6). -/
structure Request where
  role : Role
  form : Form
  path : Path
  draw : Draw
  deriving DecidableEq, Repr

/-- The state of the block. The DISK fields are in use only on a DISK block and the OUTPUT fields only on an OUTPUT block
(R17). The last four fields are the model's own. -/
structure State where
  /-- The personality and parameters, fixed at construction (R17). -/
  cfg : Config
  /-- `wdest[0]` (R16). -/
  wdest0 : Option WriteDest
  /-- `wdest[1]` (R16). -/
  wdest1 : Option WriteDest
  /-- `rdest[0]` (R16). -/
  rdest0 : Option ReadDest
  /-- `rdest[1]` (R16). -/
  rdest1 : Option ReadDest
  /-- CFG1 of R82: no CPU transaction, host operation or poll tick has been performed yet. -/
  constructing : Bool
  /-- `reg[0]`, the data register and the shared data register (R10, R12). -/
  reg0 : Cell
  /-- `reg[1]`, the mode-select register (R10). -/
  reg1 : Cell
  /-- `ready` (R14). -/
  ready : Bool
  /-- `flag` (R15). -/
  flag : Bool
  /-- `Img` (R18). -/
  img : Memory
  /-- `diskPos` (R19), an integer in 0 to 65536. -/
  diskPos : Nat
  /-- `mode` (R20). -/
  mode : Mode
  /-- `dead` (R21). -/
  dead : Bool
  /-- `path`, the backing file (R22). -/
  path : Option Path
  /-- `power` (R23). -/
  power : Bool
  /-- `intervalK` (R24). -/
  intervalK : BitVec 2
  /-- The output trace, oldest first (R27). -/
  output : List Byte
  /-- The fault record (R26). -/
  faultRecord : Option FaultRecord
  /-- The model's own: the operations the agents present, in the one total order of R49. -/
  pending : List Request
  /-- The model's own: the environment's answers for the step being taken (R6). -/
  draw : Draw
  /-- The model's own: the file requests the environment has answered with success, oldest first (R6, R28). -/
  fileRequests : List FileRequest
  /-- The model's own: what the last operation handed back, if it returns a value (R9). -/
  reply : Option Reply
  deriving DecidableEq, Repr

/-- The fault outcomes of a step (R154, R155): the run is faulted and no later step is taken (R150, R156). Each carries
the state at the fault point, every statement before the fault done and none after it (U9 of
93_implementation_defined.md, assumption 8). Each is safe: the spec itself ends the run there. A device fault is not among
them: it is the dead state, in which the block keeps stepping (R153). -/
inductive Fault where
  /-- IO1: `loadImage` could not read its file (R122, R154). Raised by `LOAD`. Safe. -/
  | io1 (point : State)
  /-- IO2: `sync` could not write its file (R121, R154). Raised by `WR 0, 0x69` in CTRL mode. Safe. -/
  | io2 (point : State)
  /-- MF1: read of a register cell that holds `⊥` (R11, R155, D4, U1). Raised by `RD`, `GETDATA` and `TICK`. Safe. -/
  | mf1 (index : Nat) (point : State)
  /-- MF2: register index 2 or more (R155). Raised by `WR` and `RD`. Safe. -/
  | mf2 (index : Nat) (point : State)
  /-- MF3: image access outside 0 to 65535 (R155). Raised by the DATA echo and by the DATA read. Safe. -/
  | mf3 (position : Nat) (point : State)
  /-- MF4: data-register read outside DATA mode (R116, R155). Raised by `RD 0` on DISK. Safe. -/
  | mf4 (mode : Mode) (point : State)
  /-- MF5: SECTOR_N echo at the sentinel (R107, R155). Raised by `SEL SECTOR_N`. Safe. -/
  | mf5 (position : Nat) (point : State)
  deriving DecidableEq, Repr

/-- The block under construction, before any binding (R180, R182): every state element at its reset value. -/
def State.bare (c : Config) : State where
  cfg := c
  wdest0 := none
  wdest1 := none
  rdest0 := none
  rdest1 := none
  constructing := true
  reg0 := .unwritten
  reg1 := .unwritten
  ready := c.resetReady
  flag := c.resetFlag
  img := []
  diskPos := 0
  mode := .data
  dead := false
  path := none
  power := c.initialPower
  intervalK := c.initialIntervalK
  output := []
  faultRecord := none
  pending := []
  draw := { fileRead := none, fileWriteOk := false }
  fileRequests := []
  reply := none

/-- Reset for configuration `c` (R180): the binding table of the personality (R100, R140), then the reset values. -/
def State.resetFor (c : Config) : State :=
  match c.personality with
  | .disk =>
    { State.bare c with
      wdest0 := some .diskDataWrite, wdest1 := some .diskModeSelect, rdest0 := some .diskDataRead }
  | .output => State.bare c

/-- The machine right after reset: a DISK block with the spec's own parameter values.
DESIGN CHOICE: the spec gives two personalities and names neither as the one (assumption 1). -/
def State.reset : State := State.resetFor (Config.standard .disk)

end Sys2Proof.Machine
end

