-- ==== Sys2Proof/Machine/Ops.lean ====
section
/-! DEFINITION. The named operations every meaning is built from: image memory, register cells, the sequencing of
outcomes, the entry into the dead state, and the fault record. -/

namespace Sys2Proof.Machine

/-- What a step, a meaning or a handler answers. -/
abbrev Out := Host.Outcome State Fault Refusal

/-! ### The image as memory (R18, R40) -/

/-- Byte `p` of an image; an unlisted byte is 0, the reset contents of R18. -/
def memRead : Memory → Nat → Byte
  | [], _ => 0
  | (a, b) :: m, p => if a = p then b else memRead m p

/-- The image with byte `p` replaced by `v`, in canonical form. -/
def memWrite : Memory → Nat → Byte → Memory
  | [], p, v => if v = 0 then [] else [(p, v)]
  | (a, b) :: m, p, v =>
    if p < a then (if v = 0 then (a, b) :: m else (p, v) :: (a, b) :: m)
    else if p = a then (if v = 0 then m else (p, v) :: m)
    else (a, b) :: memWrite m p v

/-- The canonical form from address `lo` on. -/
def Memory.wfFrom : Nat → Memory → Bool
  | _, [] => true
  | lo, (a, b) :: m => decide (lo ≤ a) && decide (a < imageSize) && decide (b ≠ 0) && Memory.wfFrom (a + 1) m

/-- The canonical form: addresses strictly rising and below `imageSize`, no entry equal to 0. -/
def Memory.wf (m : Memory) : Bool := Memory.wfFrom 0 m

/-- The bytes of a file from byte `k` of the image on, in canonical form. -/
def imageFrom : Nat → List Byte → Memory
  | _, [] => []
  | k, b :: bs => if b = 0 then imageFrom (k + 1) bs else (k, b) :: imageFrom (k + 1) bs

/-- `normalize` (R123): the first 65536 bytes of the file, zero-padded. -/
def normalizeFile (bytes : List Byte) : Memory := imageFrom 0 (bytes.take imageSize)

/-- The file `sync` writes for an image: its 65536 bytes in order (R43, R121). -/
def imageFile (m : Memory) : List Byte := (List.range imageSize).map (memRead m)

/-- `Img[p]` (R9): MF3 outside 0 to 65535. -/
def readImg (p : Nat) (s : State) : Except Fault Byte :=
  if p < imageSize then .ok (memRead s.img p) else .error (.mf3 p s)

/-- `Img[p] <- v` (R9): MF3 outside 0 to 65535. -/
def writeImg (p : Nat) (v : Byte) (s : State) : Except Fault State :=
  if p < imageSize then .ok { s with img := memWrite s.img p v } else .error (.mf3 p s)

/-! ### Register cells (R9, R10) -/

/-- Cell `i`: 0 is the data register, every other index that exists is 1 (R41). -/
def regCell (i : Nat) (s : State) : Cell := if i = 0 then s.reg0 else s.reg1

/-- `reg[i] <- v` (R9), for an index that exists. -/
def setReg (i : Nat) (v : Byte) (s : State) : State :=
  if i = 0 then { s with reg0 := .holds v } else { s with reg1 := .holds v }

/-- `reg[i]` (R9): MF1 if the cell is unwritten, as R11, R155, R182, D4 and U1 say. -/
def readReg (i : Nat) (s : State) : Except Fault Byte :=
  match regCell i s with
  | .unwritten => .error (.mf1 i s)
  | .holds v => .ok v

/-! ### Sequencing -/

/-- Go on with the next state; stop where the first part stops. -/
def andThen (o : Out) (k : State → Out) : Out :=
  match o with
  | .next s => k s
  | .fault f => .fault f
  | .refused r => .refused r

/-- Go on with the value read; stop in the fault that reading it raises. -/
def withValue {α : Type} (v : Except Fault α) (k : α → Out) : Out :=
  match v with
  | .ok a => k a
  | .error f => .fault f

/-- Refuse with `r` unless `c` holds (R157). -/
def requireThat (c : Bool) (r : Refusal) (k : Out) : Out := if c then k else .refused r

/-- A CPU transaction, a host operation or a poll tick is performed: construction is over (CFG1 of R82). -/
def performed (s : State) : State := { s with constructing := false }

/-- Hand `r` back to the issuer (R9 `return`). -/
def returning (r : Reply) (s : State) : State := { s with reply := some r }

/-! ### Device faults and the fault record -/

/-- The causes of a device fault (R151). -/
inductive DeviceFault where
  /-- DF1: unknown mode code. -/
  | df1
  /-- DF2: out-of-range seek. -/
  | df2
  /-- DF3: write past the end of the image. -/
  | df3
  /-- DF4: sync with no target file. -/
  | df4
  deriving DecidableEq, Repr

/-- `die()` (R120). -/
def die (s : State) : State := { s with reg0 := .holds deadValue, reg1 := .holds deadValue, dead := true }

/-- `raise DeviceFault(DFn)` (R9, R152): what the handler has done so far stands, `die()` runs, and the handler ends
without raising ready. No cause is recorded anywhere (R151). -/
def deviceFault (_cause : DeviceFault) (s : State) : Out := .next (die s)

/-- What a fault outcome leaves in the fault record (R26). -/
def faultRecordOf (f : Fault) : FaultRecord :=
  match f with
  | .io1 _ => .io1
  | .io2 _ => .io2
  | .mf1 i _ => .mf1 i
  | .mf2 i _ => .mf2 i
  | .mf3 p _ => .mf3 p
  | .mf4 m _ => .mf4 m
  | .mf5 p _ => .mf5 p

/-- The state at the fault point (U9). -/
def faultPoint (f : Fault) : State :=
  match f with
  | .io1 s | .io2 s | .mf1 _ s | .mf2 _ s | .mf3 _ s | .mf4 _ s | .mf5 _ s => s

/-- A recorded fault, answered again in the state that holds it (R156). -/
def recordedFault (r : FaultRecord) (s : State) : Fault :=
  match r with
  | .io1 => .io1 s
  | .io2 => .io2 s
  | .mf1 i => .mf1 i s
  | .mf2 i => .mf2 i s
  | .mf3 p => .mf3 p s
  | .mf4 m => .mf4 m s
  | .mf5 p => .mf5 p s

/-- The faulted state of the run (R26, R154, R155, U9): the state at the fault point with the fault recorded. -/
def faulted (f : Fault) : State := { faultPoint f with faultRecord := some (faultRecordOf f) }

end Sys2Proof.Machine
end

