-- ==== Sys2Proof/Machine/Flags.lean ====
section
/-! DEFINITION. The two handshake bits and every way they are written (R14, R15, R85 to R88, R93, R101). -/

namespace Sys2Proof.Machine

/-- `setReady()` (R85): the bus does not look at `dead`. -/
def setReady (s : State) : State := { s with ready := true }

/-- `unsetReady()` (R86). -/
def unsetReady (s : State) : State := { s with ready := false }

/-- `devRaiseReady()` (R101): the DISK personality's only way to raise ready; nothing while dead. -/
def devRaiseReady (s : State) : State := if s.dead then s else setReady s

/-- `setFlag()` (R87). -/
def setFlag (s : State) : State := { s with flag := true }

/-- `CLF`'s clearing of the flag (R93). -/
def clearFlag (s : State) : State := { s with flag := false }

/-- A poll tick has an effect exactly when the power is on and the flag is clear (R141). -/
def tickEnabled (s : State) : Bool := s.power && !s.flag

end Sys2Proof.Machine
end

