-- ==== Sys2Proof/Machine/Operands.lean ====
section
/-! DEFINITION. What the operand values mean (R8, R66 to R70) and the arithmetic on the cursor (R19, R42), which is on
unbounded integers. -/

namespace Sys2Proof.Machine

/-- `v[hi:lo]` (R8). -/
def bitsOf (v hi lo : Nat) : Nat := (v >>> lo) &&& (2 ^ (hi - lo + 1) - 1)

/-- `sext_8(v)` (R8, R67). -/
def sext8 (v : Byte) : Int := if v.toNat > 127 then (v.toNat : Int) - 256 else (v.toNat : Int)

/-- `diskPos[7:0]`, the byte within the sector (R42). -/
def cursorByte (pos : Nat) : Byte := BitVec.ofNat 8 (bitsOf pos 7 0)

/-- `diskPos[15:8]`, the sector (R42). -/
def cursorSector (pos : Nat) : Byte := BitVec.ofNat 8 (bitsOf pos 15 8)

/-- The cursor with its low byte replaced (R112): bit 16 of the sentinel is dropped by the mask. -/
def withCursorByte (pos : Nat) (v : Byte) : Nat := (pos &&& 0xFF00) ||| v.toNat

/-- The cursor with its high byte replaced (R113). -/
def withCursorSector (pos : Nat) (v : Byte) : Nat := (pos &&& 0x00FF) ||| (v.toNat <<< 8)

/-- The target of a SEEK write, tested and never wrapped (R8, R111). -/
def seekTarget (pos : Nat) (v : Byte) : Int := (pos : Int) + sext8 v

/-- The poll interval in milliseconds (R24, R164). -/
def intervalMs (s : State) : Nat := 10 ^ s.intervalK.toNat

/-- The echo of a newly selected mode (R104 to R108). -/
def echo (m : Mode) (s : State) : Except Fault Byte :=
  match m with
  | .data => readImg s.diskPos s
  | .seek => .ok 0x00
  | .byteN => .ok (cursorByte s.diskPos)
  | .sectorN => if s.diskPos = posMax then .error (.mf5 s.diskPos s) else .ok (cursorSector s.diskPos)
  | .ctrl => .ok 0x00

/-- The write destinations among the destinations of R73 (CFG4 of R82). -/
def writeDestOf (d : Dest) : Option WriteDest :=
  match d with
  | .diskDataWrite => some .diskDataWrite
  | .diskModeSelect => some .diskModeSelect
  | .diskDataRead => none

/-- The read destinations among the destinations of R73 (CFG4 of R82). -/
def readDestOf (d : Dest) : Option ReadDest :=
  match d with
  | .diskDataRead => some .diskDataRead
  | .diskDataWrite | .diskModeSelect => none

end Sys2Proof.Machine
end

