-- ==== Sys2Proof/Machine/Handlers.lean ====
section
/-! DEFINITION. The destinations of the DISK personality and the register dispatch that runs them: the mode-select
handler (R102), the data-register write handlers (R110 to R114), the data-register read handler (R115, R116), `sync`
(R121), and the dispatch of a CPU write and read (R89, R90). -/

namespace Sys2Proof.Machine

/-! ### Mode select (R102) -/

/-- Steps 1, 3 and 4 of `DiskModeSelect` for a code that names mode `m` (R102): a re-selection only raises ready. -/
def diskSelect (m : Mode) (s : State) : Out :=
  let s := unsetReady s
  if m = s.mode then .next (devRaiseReady s)
  else
    let s := { s with mode := m }
    withValue (echo m s) fun e => .next (devRaiseReady (setReg 0 e s))

/-- Steps 1 and 2 of `DiskModeSelect` for a code that names no mode (R109): DF1. -/
def diskSelectInvalid (s : State) : Out := deviceFault .df1 (unsetReady s)

/-- `DiskModeSelect(code)` (R102). -/
def diskModeSelect (code : Byte) (s : State) : Out :=
  match resolveMode code with
  | none => diskSelectInvalid s
  | some m => diskSelect m s

/-! ### Data-register write (R110 to R114) -/

/-- DATA mode (R110): store at the cursor, then advance; DF3 at the sentinel. -/
def diskStoreByte (v : Byte) (s : State) : Out :=
  let s := unsetReady s
  if s.diskPos = posMax then deviceFault .df3 s
  else
    withValue (writeImg s.diskPos v s) fun t =>
      .next (devRaiseReady { t with diskPos := t.diskPos + 1 })

/-- SEEK mode (R111): move by the signed offset; DF2 outside 0 to 65535. -/
def diskSeek (v : Byte) (s : State) : Out :=
  let s := unsetReady s
  let t := seekTarget s.diskPos v
  if t < 0 ∨ 65535 < t then deviceFault .df2 s
  else .next (devRaiseReady { s with diskPos := t.toNat })

/-- BYTE_N mode (R112): replace the cursor's low byte. -/
def diskSetByte (v : Byte) (s : State) : Out :=
  let s := unsetReady s
  .next (devRaiseReady { s with diskPos := withCursorByte s.diskPos v })

/-- SECTOR_N mode (R113): replace the cursor's high byte. -/
def diskSetSector (v : Byte) (s : State) : Out :=
  let s := unsetReady s
  .next (devRaiseReady { s with diskPos := withCursorSector s.diskPos v })

/-- `FileWrite(p, Img[0] .. Img[65535])` (R6, R121): the request goes to the environment; its failure is IO2. -/
def fileWrite (p : Path) (s : State) : Out :=
  if s.draw.fileWriteOk then .next { s with fileRequests := s.fileRequests ++ [.write p s.img] }
  else .fault (.io2 s)

/-- `sync()` (R121): DF4 with no backing file, before any file request. -/
def sync (s : State) : Out :=
  match s.path with
  | none => deviceFault .df4 s
  | some p => fileWrite p s

/-- CTRL mode (R114): 0x69 syncs, every other value is a no-op. After a DF4 the handler has ended, and the raise below
does nothing because the device is then dead (R101). -/
def diskCommand (v : Byte) (s : State) : Out :=
  let s := unsetReady s
  if v = syncCode then andThen (sync s) fun t => .next (devRaiseReady t)
  else .next (devRaiseReady s)

/-- `DiskDataWrite(v)`: the mode selects the handler (R76). -/
def diskDataWrite (v : Byte) (s : State) : Out :=
  match s.mode with
  | .data => diskStoreByte v s
  | .seek => diskSeek v s
  | .byteN => diskSetByte v s
  | .sectorN => diskSetSector v s
  | .ctrl => diskCommand v s

/-! ### Data-register read (R115, R116) -/

/-- DATA mode (R115): advance, then prefetch the byte at the new cursor; MF3 where there is none. -/
def diskPrefetch (s : State) : Out :=
  let s := unsetReady s
  if 65535 ≤ s.diskPos then .fault (.mf3 (s.diskPos + 1) s)
  else
    let s := { s with diskPos := s.diskPos + 1 }
    withValue (readImg s.diskPos s) fun b => .next (devRaiseReady (setReg 0 b s))

/-- Outside DATA mode (R116): MF4 with the mode. -/
def diskReadElsewhere (s : State) : Out := .fault (.mf4 s.mode s)

/-- `DiskDataRead()`: the mode selects the handler (R76). -/
def diskDataRead (s : State) : Out :=
  match s.mode with
  | .data => diskPrefetch s
  | .seek | .byteN | .sectorN | .ctrl => diskReadElsewhere s

/-! ### Register dispatch (R89, R90) -/

/-- `wdest[i]` (R16). -/
def wdest (i : Nat) (s : State) : Option WriteDest := if i = 0 then s.wdest0 else s.wdest1

/-- `rdest[i]` (R16). -/
def rdest (i : Nat) (s : State) : Option ReadDest := if i = 0 then s.rdest0 else s.rdest1

/-- Run the write destination bound to an index, if any (R89); an index with none only keeps the stored value (R140). -/
def runWrite (d : Option WriteDest) (v : Byte) (s : State) : Out :=
  match d with
  | none => .next s
  | some .diskDataWrite => diskDataWrite v s
  | some .diskModeSelect => diskModeSelect v s

/-- Run the read destination bound to an index, if any (R90). -/
def runRead (d : Option ReadDest) (s : State) : Out :=
  match d with
  | none => .next s
  | some .diskDataRead => diskDataRead s

/-- The store of `WR i, v` (R89): construction is over and the cell is written before the destination runs. -/
def storeReg (i : Nat) (v : Byte) (s : State) : State := setReg i v (performed s)

/-- The read of cell `i` around its read destination (R90), in the order `READ_SAMPLE` gives. -/
def readThrough (i : Nat) (dest : State → Out) (s : State) : Out :=
  let s := performed s
  match s.cfg.readSample with
  | .beforeHandler =>
    withValue (readReg i s) fun r => andThen (dest s) fun t => .next (returning (.byte r) t)
  | .afterHandler =>
    andThen (dest s) fun t => withValue (readReg i t) fun r => .next (returning (.byte r) t)

end Sys2Proof.Machine
end

