-- ==== Sys2Proof/Machine/Binding.lean ====
section
/-! DEFINITION. The construction-time bindings `BINDW` and `BINDR` with the checks CFG1 to CFG4 (R80 to R82). -/

namespace Sys2Proof.Machine

/-- A destination belongs to the DISK personality; the OUTPUT personality has none (CFG4 of R82, R100, R140). -/
def ownsDestinations (s : State) : Bool := s.cfg.personality == .disk

/-- `BINDW idx, d` (R80): RF5 by CFG1, RF3 by CFG2, CFG3 or CFG4; else `wdest[idx] <- d`. -/
def execBindw (idx : Nibble) (dest : Dest) (s : State) : Out :=
  requireThat s.constructing .rf5 <|
  requireThat (decide (idx.toNat < numRegs)) .rf3 <|
  requireThat (wdest idx.toNat s).isNone .rf3 <|
  requireThat (ownsDestinations s) .rf3 <|
  match writeDestOf dest with
  | none => .refused .rf3
  | some d => .next (if idx.toNat = 0 then { s with wdest0 := some d } else { s with wdest1 := some d })

/-- `BINDR idx, d` (R81): RF5 by CFG1, RF3 by CFG2, CFG3 or CFG4; else `rdest[idx] <- d`. -/
def execBindr (idx : Nibble) (dest : Dest) (s : State) : Out :=
  requireThat s.constructing .rf5 <|
  requireThat (decide (idx.toNat < numRegs)) .rf3 <|
  requireThat (rdest idx.toNat s).isNone .rf3 <|
  requireThat (ownsDestinations s) .rf3 <|
  match readDestOf dest with
  | none => .refused .rf3
  | some d => .next (if idx.toNat = 0 then { s with rdest0 := some d } else { s with rdest1 := some d })

end Sys2Proof.Machine
end

