-- ==== Sys2Proof/Machine/CpuPort.lean ====
section
/-! DEFINITION. The CPU-port transactions: `WR`, `RD`, `RDY`, `RFL`, `CLF` (R89 to R93). -/

namespace Sys2Proof.Machine

/-- `WR idx, v` (R89): MF2 for an index of 2 or more, before anything changes; else store, then dispatch. -/
def execWr (idx : Nibble) (val : Byte) (s : State) : Out :=
  if numRegs ≤ idx.toNat then .fault (.mf2 idx.toNat s)
  else runWrite (wdest idx.toNat s) val (storeReg idx.toNat val s)

/-- `RD idx` (R90): MF2 for an index of 2 or more; else sample and dispatch. -/
def execRd (idx : Nibble) (s : State) : Out :=
  if numRegs ≤ idx.toNat then .fault (.mf2 idx.toNat s)
  else readThrough idx.toNat (runRead (rdest idx.toNat s)) s

/-- `RDY` (R91). -/
def execRdy (s : State) : Out := .next (returning (.bit s.ready) (performed s))

/-- `RFL` (R92). -/
def execRflag (s : State) : Out := .next (returning (.bit s.flag) (performed s))

/-- `CLF` (R93). -/
def execClf (s : State) : Out := .next (clearFlag (performed s))

end Sys2Proof.Machine
end

