-- ==== Sys2Proof/Machine/DeviceSide.lean ====
section
/-! DEFINITION. The controller operations that only the attached personality issues: `SETDATA`, `GETDATA`, `SETRDY`,
`UNSETRDY`, `SETFLG`, `GETFLG` (R83 to R88). They run no destination and end no construction. -/

namespace Sys2Proof.Machine

/-- `setData(v)` (R83). -/
def execSetData (val : Byte) (s : State) : Out := .next (setReg 0 val s)

/-- `getData()` (R84): MF1 while `reg[0]` is unwritten. -/
def execGetData (s : State) : Out := withValue (readReg 0 s) fun v => .next (returning (.byte v) s)

/-- `setReady()` (R85). -/
def execSetRdy (s : State) : Out := .next (setReady s)

/-- `unsetReady()` (R86). -/
def execUnsetRdy (s : State) : Out := .next (unsetReady s)

/-- `setFlag()` (R87). -/
def execSetFlg (s : State) : Out := .next (setFlag s)

/-- `getFlag()` (R88): a pure read. -/
def execGetFlg (s : State) : Out := .next (returning (.bit s.flag) s)

end Sys2Proof.Machine
end

