-- ==== Sys2Proof/Machine/DiskRows.lean ====
section
/-! DEFINITION. The rows of R76 on a DISK block: each is the `WR` or `RD` it is a form of (R89, R90) with the one handler
its state condition selects. That the row applies is the decoder's business (`selectRow`). -/

namespace Sys2Proof.Machine

/-- `SEL DATA`, `WR 1, 0x00` (R104). -/
def execSelData (s : State) : Out := diskSelect .data (storeReg 1 0x00 s)

/-- `SEL SEEK`, `WR 1, 0x0A` (R105). -/
def execSelSeek (s : State) : Out := diskSelect .seek (storeReg 1 0x0A s)

/-- `SEL BYTE_N`, `WR 1, 0x0B` (R106). -/
def execSelByteN (s : State) : Out := diskSelect .byteN (storeReg 1 0x0B s)

/-- `SEL SECTOR_N`, `WR 1, 0x0C` (R107). -/
def execSelSectorN (s : State) : Out := diskSelect .sectorN (storeReg 1 0x0C s)

/-- `SEL CTRL`, `WR 1, 0x0F` (R108). -/
def execSelCtrl (s : State) : Out := diskSelect .ctrl (storeReg 1 0x0F s)

/-- `WR 1, code` with a code that names no mode (R109): the device dies. A code that does name one is not this row's, and
the word is then the `WR 1` that selects that mode (R102). -/
def execSelInvalid (code : Byte) (s : State) : Out := diskModeSelect code (storeReg 1 code s)

/-- `WR 0, v` in DATA mode (R110). -/
def execWr0Data (val : Byte) (s : State) : Out := diskStoreByte val (storeReg 0 val s)

/-- `WR 0, v` in SEEK mode (R111). -/
def execWr0Seek (val : Byte) (s : State) : Out := diskSeek val (storeReg 0 val s)

/-- `WR 0, v` in BYTE_N mode (R112). -/
def execWr0ByteN (val : Byte) (s : State) : Out := diskSetByte val (storeReg 0 val s)

/-- `WR 0, v` in SECTOR_N mode (R113). -/
def execWr0SectorN (val : Byte) (s : State) : Out := diskSetSector val (storeReg 0 val s)

/-- `WR 0, v` in CTRL mode (R114). -/
def execWr0Ctrl (val : Byte) (s : State) : Out := diskCommand val (storeReg 0 val s)

/-- `RD 0` in DATA mode (R115). -/
def execRd0Data (s : State) : Out := readThrough 0 diskPrefetch s

/-- `RD 0` outside DATA mode (R116): MF4, or MF1 first while `reg[0]` is unwritten (R158). -/
def execRd0NotData (s : State) : Out := readThrough 0 diskReadElsewhere s

/-- `RD 1` (R117): no read destination. -/
def execRd1 (s : State) : Out := readThrough 1 .next s

end Sys2Proof.Machine
end

