-- ==== Sys2Proof/Machine/HostOps.lean ====
section
/-! DEFINITION. The host operations `LOAD`, `PWR`, `IVL` (R122, R142, R143) and the poll timer's `TICK` (R141). -/

namespace Sys2Proof.Machine

/-- The steps of `loadImage` after its file was read (R122, in the rule's order). -/
def loadBytes (path : Path) (bytes : List Byte) (s : State) : State :=
  let s := { unsetReady s with img := normalizeFile bytes, diskPos := 0 }
  let s := { setReg 0 (memRead s.img 0) s with path := some path }
  let s := if s.cfg.loadClearsDead then { s with dead := false } else s
  devRaiseReady s

/-- `LOAD "path"` (R122): RF4 on OUTPUT (R71); the file is asked first, and its failure is IO1. -/
def execLoad (path : Path) (s : State) : Out :=
  requireThat (s.cfg.personality == .disk) .rf4 <|
  match s.draw.fileRead with
  | none => .fault (.io1 s)
  | some bytes =>
    .next (loadBytes path bytes { performed s with fileRequests := s.fileRequests ++ [.read path] })

/-- `PWR` (R142): RF4 on DISK (R71). -/
def execPwr (s : State) : Out :=
  requireThat (s.cfg.personality == .output) .rf4 <|
  .next { performed s with power := !s.power }

/-- `IVL k` (R143): RF1 for an interval above 3 (R157), RF4 on DISK (R71). -/
def execIvl (k : Byte) (s : State) : Out :=
  requireThat (decide (k.toNat < 4)) .rf1 <|
  requireThat (s.cfg.personality == .output) .rf4 <|
  .next { performed s with intervalK := k.setWidth 2 }

/-- `emit Output(v)` (R144). -/
def emit (v : Byte) (s : State) : State := { s with output := s.output ++ [v] }

/-- `TICK` (R141): RF4 on DISK (R71). A tick with the power off or the flag set changes nothing. -/
def execTick (s : State) : Out :=
  requireThat (s.cfg.personality == .output) .rf4 <|
  if tickEnabled s then
    withValue (readReg 0 s) fun v => .next (setFlag (emit v (performed s)))
  else .next s

end Sys2Proof.Machine
end

