-- ==== Sys2Proof/Machine/Dispatch.lean ====
section
/-! DEFINITION. One arm per operation, each one call of its meaning. -/

namespace Sys2Proof.Machine

def exec (i : Instr) (s : State) : Host.Outcome State Fault Refusal :=
  match i with
  -- CPU port and handshake (40_iocontroller.md sections 5 and 6)
  | .wr idx val => Sys2Proof.Machine.execWr idx val s
  | .rd idx => Sys2Proof.Machine.execRd idx s
  | .rdy => Sys2Proof.Machine.execRdy s
  | .rflag => Sys2Proof.Machine.execRflag s
  | .clf => Sys2Proof.Machine.execClf s
  -- construction (40_iocontroller.md section 1)
  | .bindw idx dest => Sys2Proof.Machine.execBindw idx dest s
  | .bindr idx dest => Sys2Proof.Machine.execBindr idx dest s
  -- device side (40_iocontroller.md sections 2 to 4)
  | .setData val => Sys2Proof.Machine.execSetData val s
  | .getData => Sys2Proof.Machine.execGetData s
  | .setRdy => Sys2Proof.Machine.execSetRdy s
  | .unsetRdy => Sys2Proof.Machine.execUnsetRdy s
  | .setFlg => Sys2Proof.Machine.execSetFlg s
  | .getFlg => Sys2Proof.Machine.execGetFlg s
  -- the DISK rows (41_disk_peripheral.md sections 2 to 4)
  | .selData => Sys2Proof.Machine.execSelData s
  | .selSeek => Sys2Proof.Machine.execSelSeek s
  | .selByteN => Sys2Proof.Machine.execSelByteN s
  | .selSectorN => Sys2Proof.Machine.execSelSectorN s
  | .selCtrl => Sys2Proof.Machine.execSelCtrl s
  | .selInvalid code => Sys2Proof.Machine.execSelInvalid code s
  | .wr0Data val => Sys2Proof.Machine.execWr0Data val s
  | .wr0Seek val => Sys2Proof.Machine.execWr0Seek val s
  | .wr0ByteN val => Sys2Proof.Machine.execWr0ByteN val s
  | .wr0SectorN val => Sys2Proof.Machine.execWr0SectorN val s
  | .wr0Ctrl val => Sys2Proof.Machine.execWr0Ctrl val s
  | .rd0Data => Sys2Proof.Machine.execRd0Data s
  | .rd0NotData => Sys2Proof.Machine.execRd0NotData s
  | .rd1 => Sys2Proof.Machine.execRd1 s
  -- host and poll timer (41_disk_peripheral.md section 7, 42_output_peripheral.md)
  | .load path => Sys2Proof.Machine.execLoad path s
  | .pwr => Sys2Proof.Machine.execPwr s
  | .ivl k => Sys2Proof.Machine.execIvl k s
  | .tick => Sys2Proof.Machine.execTick s

end Sys2Proof.Machine
end

