-- ==== Sys2Proof/Machine/Port.lean ====
section
/-! DEFINITION. What the block takes next: the operation at the head of the total order of R49, brought to a word,
decoded, and checked for the role that presents it (R61 to R76, R157, R163). -/

namespace Sys2Proof.Machine

/-- The mode, where the DISK rows of R76 apply: on a DISK block with the binding table of R100. -/
def diskMode (s : State) : Option Mode :=
  if s.cfg.personality = .disk ∧ s.wdest0 = some .diskDataWrite ∧ s.wdest1 = some .diskModeSelect
      ∧ s.rdest0 = some .diskDataRead ∧ s.rdest1 = none then some s.mode
  else none

/-- Integers presented for the fields of a word: RF1 for one outside its width, `IVL`'s `k` having the range 0 to 3
(R64, R157). -/
def wordOfFields (op : Nibble) (idx val : Nat) : Except Refusal Word :=
  if 16 ≤ idx ∨ 256 ≤ val then .error .rf1
  else if op = 0xF ∧ idx = 2 ∧ 4 ≤ val then .error .rf1
  else .ok (mkWord op (BitVec.ofNat 4 idx) (BitVec.ofNat 8 val))

/-- The word a presented operation is. -/
def wordOfForm (f : Form) : Except Refusal Word :=
  match f with
  | .word w => .ok w
  | .fields op idx val => wordOfFields op idx val
  | .encoder _ => .error .encoderAbsent

/-- The operation a request asks for: RF2 for a reserved word (R74), RF4 for an operation of another role (R163). -/
def admitRequest (r : Request) (s : State) : Except Refusal Instr :=
  match wordOfForm r.form with
  | .error e => .error e
  | .ok w =>
    match decodeIn (diskMode s) w r.path with
    | .error e => .error (.rf2 e)
    | .ok i => if roleOf i = r.role then .ok i else .error .rf4

/-- What the block does next. -/
inductive Fetched where
  /-- A fault is recorded: no step is ever taken again (R156). -/
  | stuck (f : FaultRecord)
  /-- Nothing is presented and no tick is enabled: no agent has a step. -/
  | idle
  /-- What is presented is not admitted: no step happens (R157). -/
  | turnedAway (r : Refusal)
  /-- The operation to perform, in the state it is performed in. -/
  | run (i : Instr) (s : State)

/-- Take the head of the pending operations, with the environment's answers for it; the reply of an earlier operation
is gone. With nothing pending, an enabled tick of the poll timer is taken: the weak fairness of R189. -/
def fetch (s : State) : Fetched :=
  match s.faultRecord with
  | some f => .stuck f
  | none =>
    match s.pending with
    | [] =>
      if s.cfg.personality = .output ∧ tickEnabled s = true then .run .tick { s with reply := none }
      else .idle
    | r :: rest =>
      match admitRequest r s with
      | .error e => .turnedAway e
      | .ok i => .run i { s with pending := rest, draw := r.draw, reply := none }

/-- The role that may issue a word's operation; the CPU for a word that spells none. -/
def roleOfWord (w : Word) (s : State) : Role :=
  match decodeIn (diskMode s) w "" with
  | .ok i => roleOf i
  | .error _ => .cpu

/-- A word presented by the role that may issue it, with the empty path and an environment that answers every file request
with success and an empty file. -/
def requestOfWord (w : Word) (s : State) : Request where
  role := roleOfWord w s
  form := .word w
  path := ""
  draw := { fileRead := some [], fileWriteOk := true }

end Sys2Proof.Machine
end

