-- ==== Sys2Proof/Machine/Step.lean ====
section
/-! DEFINITION. One atomic step of the block (R45): the next operation is taken and performed whole. -/

namespace Sys2Proof.Machine

/-- One step. A recorded fault answers itself for ever (R156); an idle block stays as it is. -/
def step (s : State) : Host.Outcome State Fault Refusal :=
  match fetch s with
  | .stuck f => .fault (recordedFault f s)
  | .idle => .next s
  | .turnedAway r => .refused r
  | .run i t => exec i t

/-- `s` with the word `w` presented as the next operation (assumption 9). -/
def State.withFetchWord (s : State) (_nbits w : Nat) : State :=
  { s with pending := requestOfWord (BitVec.ofNat 16 w) s :: s.pending }

end Sys2Proof.Machine
end

