-- ==== Sys2Proof/Safety.lean ====
section
/-! DEFINITION. The terms claims are stated in: the invariant of R29 and its companions, which parts of an outcome a claim
looks at, and a run of the block past the steps that stop. -/

namespace Sys2Proof.Machine

/-- The next state of an outcome. -/
def nextOf (o : Out) : Option State :=
  match o with
  | .next s => some s
  | .fault _ => none
  | .refused _ => none

/-- The fault of an outcome. -/
def faultOf (o : Out) : Option Fault :=
  match o with
  | .next _ => none
  | .fault f => some f
  | .refused _ => none

/-- What the fault of an outcome leaves in the fault record. -/
def recordOf (o : Out) : Option FaultRecord := (faultOf o).map faultRecordOf

/-- The refusal of an outcome. -/
def refusalOf (o : Out) : Option Refusal :=
  match o with
  | .next _ => none
  | .fault _ => none
  | .refused r => some r

/-- The state of a run after one step (R26, R150, R157): a fault is recorded, and what is refused is not admitted and
drops out of the pending operations. -/
def advance (s : State) : State :=
  match step s with
  | .next t => t
  | .fault f => faulted f
  | .refused _ => { s with pending := s.pending.tail }

/-- No pending operation is presented by the device role: the personality's handlers are not agents, each runs inside
the step of the agent that triggered it (R7). -/
def agentsOnly (s : State) : Bool := s.pending.all fun r => r.role != .device

/-- No destination is bound (R140). -/
def unbound (s : State) : Bool :=
  s.wdest0.isNone && s.wdest1.isNone && s.rdest0.isNone && s.rdest1.isNone

/-- What holds in every state a run of the agents reaches: the cursor is in 0 to 65536 and a dead device is not ready
(R29), the image is in canonical form, an OUTPUT block has nothing bound (R140), and only agents present operations
(R7). -/
structure Inv (s : State) : Prop where
  cursor : s.diskPos ≤ posMax
  deadNotReady : s.dead = true → s.ready = false
  image : Memory.wf s.img = true
  outputUnbound : s.cfg.personality = .output → unbound s = true
  agents : agentsOnly s = true

/-- The state a `WR` leaves whose handler raises a device fault (R152): ready lowered, then `die()` (R120). -/
def diedIn (s : State) : State :=
  { s with constructing := false, ready := false, reg0 := .holds 0xFF, reg1 := .holds 0xFF, dead := true }

/-- Operations one after another, stopping where one stops. -/
def runList : List Instr → State → Out
  | [], s => .next s
  | i :: is, s => andThen (exec i s) (runList is)

/-- A fault with the state at its fault point changed by `f`. -/
def mapFaultPoint (f : State → State) (e : Fault) : Fault := recordedFault (faultRecordOf e) (f (faultPoint e))

/-- An outcome with the state it leaves changed by `f`: the next state, or the state at the fault point (U9). -/
def mapState (f : State → State) (o : Out) : Out :=
  match o with
  | .next s => .next (f s)
  | .fault e => .fault (mapFaultPoint f e)
  | .refused r => .refused r

/-- A word that R74 reserves: an `op` of 0x0 or 0xE, a field of R62 or R71 that must be 0 and is not, a host-group `idx`
of 4 to 15, an `IVL` with `val` of 4 to 255, or a binding with a destination id that R73 does not name. -/
def reservedWord (w : Word) : Bool :=
  let op := (opField w).toNat
  let idx := (idxField w).toNat
  let val := (valField w).toNat
  op == 0x0 || op == 0xE
    || (op == 0x2 && val != 0)
    || ((op == 0x6 || op == 0x7) && (val == 0 || decide (4 ≤ val)))
    || (op == 0x8 && idx != 0)
    || ((op == 0x3 || op == 0x4 || op == 0x5 || op == 0x9 || op == 0xA || op == 0xB || op == 0xC || op == 0xD)
        && (idx != 0 || val != 0))
    || (op == 0xF && (decide (4 ≤ idx) || (idx == 2 && decide (4 ≤ val)) || (idx != 2 && val != 0)))

/-- The operations of the device role, which are the parts of handlers and not steps of an agent (R7, R72). -/
def deviceOp (i : Instr) : Bool := roleOf i == .device

end Sys2Proof.Machine
end

