-- ==== Sys2Proof/Certificates/Slice0/Obligations.lean ====
section
/-! DEFINITION. The statements for the provers, from the numbered rules of spec/. A statement that gives the next state as
an update of the state before it is that instruction's frame as well: every field it does not name is unchanged. -/

open Sys2Proof Sys2Proof.Machine

/-! ### Encoding -/

/-- R61 to R73, R76: the word of every well-formed operation decodes to that operation wherever its row applies. -/
def Obligations.DecodeOfEncode : Prop :=
  ∀ (disk : Option Mode) (i : Instr), i.wellFormed = true → rowApplies disk i = true →
    decodeIn disk (encode i) (pathOperand i) = .ok i

/-- R60, R61: what a word decodes to is well formed, applies there, and encodes to that word: no two words are one
operation, and the path is the `LOAD` operand. -/
def Obligations.EncodeOfDecode : Prop :=
  ∀ (disk : Option Mode) (w : Word) (p : Path) (i : Instr), decodeIn disk w p = .ok i →
    encode i = w ∧ i.wellFormed = true ∧ rowApplies disk i = true ∧ (∀ q, i = .load q → q = p)

/-- R74, R157: exactly the reserved words are refused by the decoder, and a block whose next operation is one refuses it
with RF2. -/
def Obligations.ReservedWordsRefused : Prop :=
  ∀ (disk : Option Mode) (w : Word) (p : Path),
    ((∃ e, decodeIn disk w p = .error e) ↔ reservedWord w = true) ∧
    ∀ (s : State) (r : Request) (rest : List Request), reservedWord w = true → s.faultRecord = none →
      s.pending = r :: rest → r.form = .word w → ∃ e, step s = .refused (.rf2 e)

/-- Vectors E1 to E16 of 95_test_vectors.md, and the DISK rows of R76: some words written out in numbers. -/
def Obligations.WordsOfTheSpecDecode : Prop :=
  (decodeIn none 0x110C "" = .ok (.wr 1 0x0C) ∧ decodeIn (some .seek) 0x110C "" = .ok .selSectorN) ∧
  (decodeIn none 0x2100 "" = .ok (.rd 1) ∧ decodeIn (some .data) 0x2100 "" = .ok .rd1) ∧
  decodeIn (some .byteN) 0x1034 "" = .ok (.wr0ByteN 0x34) ∧ decodeIn (some .seek) 0x10FF "" = .ok (.wr0Seek 0xFF) ∧
  decodeIn (some .data) 0x2000 "" = .ok .rd0Data ∧ decodeIn (some .ctrl) 0x2000 "" = .ok .rd0NotData ∧
  decodeIn none 0x3000 "" = .ok .rdy ∧ decodeIn none 0x4000 "" = .ok .rflag ∧ decodeIn none 0x5000 "" = .ok .clf ∧
  decodeIn none 0x6102 "" = .ok (.bindw 1 .diskModeSelect) ∧ decodeIn none 0x7003 "" = .ok (.bindr 0 .diskDataRead) ∧
  decodeIn none 0x8041 "" = .ok (.setData 0x41) ∧ decodeIn none 0xD000 "" = .ok .getFlg ∧
  decodeIn none 0xF000 "a" = .ok (.load "a") ∧ decodeIn none 0xF203 "" = .ok (.ivl 3) ∧
  decodeIn none 0xF300 "" = .ok .tick

/-- R63: a register index of 2 to 15 decodes in `WR` and `RD`, whose execution is then the model fault MF2 in every state;
in `BINDW` and `BINDR` it is a configuration refusal. -/
def Obligations.HighIndexDecodesThenFaults : Prop :=
  ∀ (disk : Option Mode) (idx : Nibble) (v : Byte) (d : Dest) (p : Path) (s : State), 2 ≤ idx.toNat →
    decodeIn disk (mkWord 0x1 idx v) p = .ok (.wr idx v) ∧ exec (.wr idx v) s = .fault (.mf2 idx.toNat s) ∧
    decodeIn disk (mkWord 0x2 idx 0) p = .ok (.rd idx) ∧ exec (.rd idx) s = .fault (.mf2 idx.toNat s) ∧
    (exec (.bindw idx d) s = .refused .rf3 ∨ exec (.bindw idx d) s = .refused .rf5) ∧
    (exec (.bindr idx d) s = .refused .rf3 ∨ exec (.bindr idx d) s = .refused .rf5)

/-! ### The step, the port and the fault record -/

/-- R45, R49, R76: the operation at the head of the pending ones, admitted, is performed whole on the state the operation
before it left; around `exec` the step drops it from the pending ones, takes its draw and clears the reply. -/
def Obligations.StepRunsDecodedOperation : Prop :=
  ∀ (s : State) (r : Request) (rest : List Request) (w : Word) (i : Instr), s.faultRecord = none →
    s.pending = r :: rest → wordOfForm r.form = .ok w → decodeIn (diskMode s) w r.path = .ok i →
    roleOf i = r.role →
    step s = exec i { s with pending := rest, draw := r.draw, reply := none }

/-- R163: an operation presented by a role that may not issue it is refused with RF4, whatever the state; and the role
that may issue each operation, one clause per role of the table of R163, every form of `WR` and `RD` being the CPU's. -/
def Obligations.WrongRoleRefused : Prop :=
  (∀ (s : State) (r : Request) (rest : List Request) (w : Word) (i : Instr), s.faultRecord = none →
    s.pending = r :: rest → wordOfForm r.form = .ok w → decodeIn (diskMode s) w r.path = .ok i →
    roleOf i ≠ r.role → step s = .refused .rf4) ∧
  (∀ (i : Instr), roleOf i = .cpu ↔
    (∃ j v, i = .wr j v) ∨ (∃ j, i = .rd j) ∨
    i ∈ [.rdy, .rflag, .clf, .selData, .selSeek, .selByteN, .selSectorN, .selCtrl, .rd0Data, .rd0NotData, .rd1] ∨
    ∃ v, i ∈ [.selInvalid v, .wr0Data v, .wr0Seek v, .wr0ByteN v, .wr0SectorN v, .wr0Ctrl v]) ∧
  (∀ (i : Instr), roleOf i = .host ↔ (∃ p, i = .load p) ∨ i = .pwr ∨ ∃ k, i = .ivl k) ∧
  (∀ (i : Instr), roleOf i = .timer ↔ i = .tick) ∧
  (∀ (i : Instr), roleOf i = .device ↔
    (∃ v, i = .setData v) ∨ i ∈ [.getData, .setRdy, .unsetRdy, .setFlg, .getFlg]) ∧
  (∀ (i : Instr), roleOf i = .construction ↔ ∃ j d, i = .bindw j d ∨ i = .bindr j d)

/-- R64, R157, D30: integers outside their field's width are refused with RF1 and never truncated, those inside are the
word with those fields, and a request for the absent handshake encoder is refused. -/
def Obligations.WideOperandsRefused : Prop :=
  ∀ (s : State) (r : Request) (rest : List Request), s.faultRecord = none → s.pending = r :: rest →
    (∀ (op : Nibble) (idx val : Nat), r.form = .fields op idx val →
      ((15 < idx ∨ 255 < val ∨ (op = 0xF ∧ idx = 2 ∧ 3 < val)) → step s = .refused .rf1) ∧
      (¬ (15 < idx ∨ 255 < val ∨ (op = 0xF ∧ idx = 2 ∧ 3 < val)) →
        ∃ w, wordOfForm r.form = .ok w ∧ opField w = op ∧ (idxField w).toNat = idx ∧ (valField w).toNat = val)) ∧
    (∀ bs, r.form = .encoder bs → step s = .refused .encoderAbsent)

/-- R26, R156, and U9 of 93_implementation_defined.md: a fault is recorded by the run, the rest of the state being that of
the fault point; a recorded fault answers every later step and the state stays as it is; a step that ends normally records
none. -/
def Obligations.FaultRecordNeverCleared : Prop :=
  (∀ (s : State) (f : Fault), step s = .fault f →
    advance s = { faultPoint f with faultRecord := some (faultRecordOf f) }) ∧
  (∀ (s : State) (r : FaultRecord), s.faultRecord = some r → step s = .fault (recordedFault r s) ∧ advance s = s) ∧
  (∀ (s t : State), s.faultRecord = none → step s = .next t → t.faultRecord = none)

/-- R189, R141: with nothing else presented, an enabled tick is taken at the next step; with no tick enabled the block
stays as it is. The reply of an earlier operation is the model's own field. -/
def Obligations.EnabledTickIsTaken : Prop :=
  ∀ (s : State), s.faultRecord = none → s.pending = [] →
    (∀ v, s.cfg.personality = .output → s.power = true → s.flag = false → s.reg0 = .holds v →
      step s = .next { s with reply := none, constructing := false, output := s.output ++ [v], flag := true }) ∧
    ((s.cfg.personality = .disk ∨ s.power = false ∨ s.flag = true) → step s = .next s)

/-! ### Reset -/

/-- R180: the reset values, for a block of each personality with the spec's own parameter values. The interval, which the
spec leaves OPEN, is not claimed. -/
def Obligations.ResetValues : Prop :=
  ∀ (p : Personality),
    let s := State.resetFor (Config.standard p)
    s.cfg.personality = p ∧
    (p = .disk → s.wdest0 = some .diskDataWrite ∧ s.wdest1 = some .diskModeSelect ∧ s.rdest0 = some .diskDataRead
      ∧ s.rdest1 = none) ∧
    (p = .output → s.wdest0 = none ∧ s.wdest1 = none ∧ s.rdest0 = none ∧ s.rdest1 = none) ∧
    s.reg0 = .unwritten ∧ s.reg1 = .unwritten ∧ s.ready = false ∧ s.flag = true ∧ (∀ a, memRead s.img a = 0) ∧
    s.diskPos = 0 ∧ s.mode = .data ∧ s.dead = false ∧ s.path = none ∧ s.power = false ∧ s.output = [] ∧
    s.faultRecord = none

/-- R29, R180: the invariant holds at reset, for every configuration. -/
def Obligations.ResetMeetsInvariant : Prop := ∀ (c : Config), Inv (State.resetFor c)

/-- R100, R180: on a DISK block under construction with nothing bound, the three bindings of R100 are admitted and leave
the reset state. -/
def Obligations.BindingsBuildTheDiskTable : Prop :=
  ∀ (c : Config), c.personality = .disk →
    runList [.bindw 0 .diskDataWrite, .bindw 1 .diskModeSelect, .bindr 0 .diskDataRead] (State.bare c)
      = .next (State.resetFor c)

/-! ### Construction -/

/-- R80, R82: `BINDW` is admitted exactly under CFG1 to CFG4, and then sets `wdest[idx]` and nothing else. -/
def Obligations.BindWriteChecks : Prop :=
  ∀ (s : State) (idx : Nibble) (d : Dest),
    (encode (.bindw idx d)).toNat = 0x6000 + idx.toNat * 256 + (destId d).toNat ∧
    (s.constructing = false → exec (.bindw idx d) s = .refused .rf5) ∧
    (s.constructing = true →
      (2 ≤ idx.toNat ∨ (idx = 0 ∧ s.wdest0 ≠ none) ∨ (idx = 1 ∧ s.wdest1 ≠ none) ∨ d = .diskDataRead
        ∨ s.cfg.personality = .output) → exec (.bindw idx d) s = .refused .rf3) ∧
    (s.constructing = true → s.cfg.personality = .disk → ∀ e : WriteDest,
      ((d = .diskDataWrite ∧ e = .diskDataWrite) ∨ (d = .diskModeSelect ∧ e = .diskModeSelect)) →
      (s.wdest0 = none → exec (.bindw 0 d) s = .next { s with wdest0 := some e }) ∧
      (s.wdest1 = none → exec (.bindw 1 d) s = .next { s with wdest1 := some e }))

/-- R81, R82: `BINDR` is admitted exactly under CFG1 to CFG4, and then sets `rdest[idx]` and nothing else. -/
def Obligations.BindReadChecks : Prop :=
  ∀ (s : State) (idx : Nibble) (d : Dest),
    (encode (.bindr idx d)).toNat = 0x7000 + idx.toNat * 256 + (destId d).toNat ∧
    (s.constructing = false → exec (.bindr idx d) s = .refused .rf5) ∧
    (s.constructing = true →
      (2 ≤ idx.toNat ∨ (idx = 0 ∧ s.rdest0 ≠ none) ∨ (idx = 1 ∧ s.rdest1 ≠ none) ∨ d ≠ .diskDataRead
        ∨ s.cfg.personality = .output) → exec (.bindr idx d) s = .refused .rf3) ∧
    (s.constructing = true → s.cfg.personality = .disk →
      (s.rdest0 = none → exec (.bindr 0 .diskDataRead) s = .next { s with rdest0 := some .diskDataRead }) ∧
      (s.rdest1 = none → exec (.bindr 1 .diskDataRead) s = .next { s with rdest1 := some .diskDataRead }))

/-! ### The CPU port -/

/-- R140, R89: a `WR` of an index with no destination only stores the value (and ends construction, CFG1 of R82). -/
def Obligations.UnboundWriteOnlyStores : Prop :=
  ∀ (s : State) (v : Byte),
    (s.wdest0 = none → exec (.wr 0 v) s = .next { s with constructing := false, reg0 := .holds v }) ∧
    (s.wdest1 = none → exec (.wr 1 v) s = .next { s with constructing := false, reg1 := .holds v })

/-- R90, R140: a `RD` of an index with no destination only returns the cell, under either `READ_SAMPLE`; a cell that holds
the unwritten mark is MF1. -/
def Obligations.UnboundReadOnlyReturns : Prop :=
  ∀ (s : State),
    (s.rdest0 = none →
      (∀ v, s.reg0 = .holds v →
        exec (.rd 0) s = .next { s with constructing := false, reply := some (.byte v) }) ∧
      (s.reg0 = .unwritten → exec (.rd 0) s = .fault (.mf1 0 { s with constructing := false }))) ∧
    (s.rdest1 = none →
      (∀ v, s.reg1 = .holds v →
        exec (.rd 1) s = .next { s with constructing := false, reply := some (.byte v) }) ∧
      (s.reg1 = .unwritten → exec (.rd 1) s = .fault (.mf1 1 { s with constructing := false })))

/-- R91, R92, R93: `RDY` and `RFL` return the bits and change no state of the block; `CLF` clears the flag and nothing
else. -/
def Obligations.HandshakeBitTransactions : Prop :=
  ∀ (s : State),
    encode .rdy = 0x3000 ∧ encode .rflag = 0x4000 ∧ encode .clf = 0x5000 ∧
    exec .rdy s = .next { s with constructing := false, reply := some (.bit s.ready) } ∧
    exec .rflag s = .next { s with constructing := false, reply := some (.bit s.flag) } ∧
    exec .clf s = .next { s with constructing := false, flag := false }

/-- R76, R89, R90: on a DISK block with the binding table of R100, the row an operation is decoded to does exactly what the
`WR` or `RD` it is a form of does through the register dispatch. -/
def Obligations.RowsRefineDispatch : Prop :=
  ∀ (s : State) (i : Instr), exec (selectRow (diskMode s) i) s = exec i s

/-! ### The device side -/

/-- R83 to R88: the controller's own operations touch one element each, whether or not the device is dead; `getData` of an
unwritten cell is MF1. -/
def Obligations.ControllerOperations : Prop :=
  ∀ (s : State) (v : Byte),
    (encode (.setData v)).toNat = 0x8000 + v.toNat ∧ encode .getData = 0x9000 ∧ encode .setRdy = 0xA000 ∧
    encode .unsetRdy = 0xB000 ∧ encode .setFlg = 0xC000 ∧ encode .getFlg = 0xD000 ∧
    (∀ i ∈ [Instr.setData v, .getData, .setRdy, .unsetRdy, .setFlg, .getFlg], roleOf i = .device) ∧
    exec (.setData v) s = .next { s with reg0 := .holds v } ∧
    (s.reg0 = .holds v → exec .getData s = .next { s with reply := some (.byte v) }) ∧
    (s.reg0 = .unwritten → exec .getData s = .fault (.mf1 0 s)) ∧
    exec .setRdy s = .next { s with ready := true } ∧
    exec .unsetRdy s = .next { s with ready := false } ∧
    exec .setFlg s = .next { s with flag := true } ∧
    exec .getFlg s = .next { s with reply := some (.bit s.flag) }

/-! ### DISK: mode select -/

/-- R104: `SEL DATA` echoes the byte at the cursor; at the sentinel it is MF3, and a re-selection echoes nothing. -/
def Obligations.SelectDataEchoesByte : Prop :=
  ∀ (s : State) (m : Mode), diskMode s = some m →
    encode .selData = 0x1100 ∧ exec (.wr 1 0x00) s = exec .selData s ∧
    (m ≠ .data → s.diskPos ≤ 65535 →
      exec .selData s = .next { s with constructing := false, reg1 := .holds 0x00, mode := .data,
                                       reg0 := .holds (memRead s.img s.diskPos), ready := !s.dead }) ∧
    (m ≠ .data → s.diskPos = 65536 →
      exec .selData s = .fault (.mf3 65536 { s with constructing := false, reg1 := .holds 0x00, mode := .data,
                                                    ready := false })) ∧
    (m = .data →
      exec .selData s = .next { s with constructing := false, reg1 := .holds 0x00, ready := !s.dead })

/-- R105: `SEL SEEK` echoes 0; a re-selection keeps `reg[0]`. -/
def Obligations.SelectSeekEchoesZero : Prop :=
  ∀ (s : State) (m : Mode), diskMode s = some m →
    encode .selSeek = 0x110A ∧ exec (.wr 1 0x0A) s = exec .selSeek s ∧
    (m ≠ .seek →
      exec .selSeek s = .next { s with constructing := false, reg1 := .holds 0x0A, mode := .seek,
                                       reg0 := .holds 0x00, ready := !s.dead }) ∧
    (m = .seek →
      exec .selSeek s = .next { s with constructing := false, reg1 := .holds 0x0A, ready := !s.dead })

/-- R106: `SEL BYTE_N` echoes the cursor's low 8 bits, 0 at the sentinel. -/
def Obligations.SelectByteEchoesLowByte : Prop :=
  ∀ (s : State) (m : Mode), diskMode s = some m →
    encode .selByteN = 0x110B ∧ exec (.wr 1 0x0B) s = exec .selByteN s ∧
    (m ≠ .byteN → ∃ b : Byte, b.toNat = s.diskPos % 256 ∧
      exec .selByteN s = .next { s with constructing := false, reg1 := .holds 0x0B, mode := .byteN,
                                        reg0 := .holds b, ready := !s.dead }) ∧
    (m = .byteN →
      exec .selByteN s = .next { s with constructing := false, reg1 := .holds 0x0B, ready := !s.dead })

/-- R107: `SEL SECTOR_N` echoes bits 15:8 of the cursor; at the sentinel it is MF5. -/
def Obligations.SelectSectorEchoesHighByte : Prop :=
  ∀ (s : State) (m : Mode), diskMode s = some m →
    encode .selSectorN = 0x110C ∧ exec (.wr 1 0x0C) s = exec .selSectorN s ∧
    (m ≠ .sectorN → s.diskPos ≤ 65535 → ∃ b : Byte, b.toNat = s.diskPos / 256 ∧
      exec .selSectorN s = .next { s with constructing := false, reg1 := .holds 0x0C, mode := .sectorN,
                                          reg0 := .holds b, ready := !s.dead }) ∧
    (m ≠ .sectorN → s.diskPos = 65536 →
      exec .selSectorN s = .fault (.mf5 65536 { s with constructing := false, reg1 := .holds 0x0C, mode := .sectorN,
                                                       ready := false })) ∧
    (m = .sectorN →
      exec .selSectorN s = .next { s with constructing := false, reg1 := .holds 0x0C, ready := !s.dead })

/-- R108: `SEL CTRL` echoes 0; a re-selection echoes nothing. -/
def Obligations.SelectCtrlEchoesZero : Prop :=
  ∀ (s : State) (m : Mode), diskMode s = some m →
    encode .selCtrl = 0x110F ∧ exec (.wr 1 0x0F) s = exec .selCtrl s ∧
    (m ≠ .ctrl →
      exec .selCtrl s = .next { s with constructing := false, reg1 := .holds 0x0F, mode := .ctrl,
                                       reg0 := .holds 0x00, ready := !s.dead }) ∧
    (m = .ctrl →
      exec .selCtrl s = .next { s with constructing := false, reg1 := .holds 0x0F, ready := !s.dead })

/-- R109: each of the other 251 codes is a device fault, dead or not, and leaves the mode, cursor and image alone. -/
def Obligations.InvalidCodeDies : Prop :=
  ∀ (s : State) (m : Mode) (code : Byte), diskMode s = some m →
    code ≠ 0x00 → code ≠ 0x0A → code ≠ 0x0B → code ≠ 0x0C → code ≠ 0x0F →
    (encode (.selInvalid code)).toNat = 0x1100 + code.toNat ∧
    exec (.selInvalid code) s = .next (diedIn s) ∧ exec (.wr 1 code) s = .next (diedIn s)

/-! ### DISK: data-register write -/

/-- R110: a DATA write stores at the cursor and then advances, at 65535 too; at the sentinel the device dies. Every byte
of the image but the one at the cursor reads as before. -/
def Obligations.DataWriteStoresThenAdvances : Prop :=
  ∀ (s : State) (v : Byte), diskMode s = some .data → Memory.wf s.img = true →
    (encode (.wr0Data v)).toNat = 0x1000 + v.toNat ∧ exec (.wr 0 v) s = exec (.wr0Data v) s ∧
    (s.diskPos ≤ 65535 → ∃ t, exec (.wr0Data v) s = .next t ∧
      (∀ a, memRead t.img a = if a = s.diskPos then v else memRead s.img a) ∧
      t = { s with constructing := false, reg0 := .holds v, img := t.img, diskPos := s.diskPos + 1,
                   ready := !s.dead }) ∧
    (s.diskPos = 65536 → exec (.wr0Data v) s = .next (diedIn s))

/-- R111, R67: a SEEK write adds the two's-complement offset; a target outside 0 to 65535 kills the device and leaves the
cursor. -/
def Obligations.SeekMovesOrDies : Prop :=
  ∀ (s : State) (v : Byte), diskMode s = some .seek →
    (encode (.wr0Seek v)).toNat = 0x1000 + v.toNat ∧ exec (.wr 0 v) s = exec (.wr0Seek v) s ∧
    (0 ≤ (s.diskPos : Int) + v.toInt → (s.diskPos : Int) + v.toInt ≤ 65535 → ∃ n : Nat,
      (n : Int) = (s.diskPos : Int) + v.toInt ∧
      exec (.wr0Seek v) s = .next { s with constructing := false, reg0 := .holds v, diskPos := n,
                                           ready := !s.dead }) ∧
    ((s.diskPos : Int) + v.toInt < 0 ∨ 65535 < (s.diskPos : Int) + v.toInt →
      exec (.wr0Seek v) s = .next (diedIn s))

/-- R112: a BYTE_N write replaces the cursor's low byte and keeps the sector; from the sentinel the cursor becomes the
byte. -/
def Obligations.ByteWriteKeepsSector : Prop :=
  ∀ (s : State) (v : Byte), diskMode s = some .byteN → ∃ n : Nat,
    (encode (.wr0ByteN v)).toNat = 0x1000 + v.toNat ∧ exec (.wr 0 v) s = exec (.wr0ByteN v) s ∧
    exec (.wr0ByteN v) s = .next { s with constructing := false, reg0 := .holds v, diskPos := n, ready := !s.dead } ∧
    n ≤ 65535 ∧ n % 256 = v.toNat ∧ (s.diskPos ≤ 65535 → n / 256 = s.diskPos / 256) ∧
    (s.diskPos = 65536 → n = v.toNat)

/-- R113: a SECTOR_N write replaces the cursor's high byte and keeps the low one; from the sentinel the low byte is 0. -/
def Obligations.SectorWriteKeepsByte : Prop :=
  ∀ (s : State) (v : Byte), diskMode s = some .sectorN → ∃ n : Nat,
    (encode (.wr0SectorN v)).toNat = 0x1000 + v.toNat ∧ exec (.wr 0 v) s = exec (.wr0SectorN v) s ∧
    exec (.wr0SectorN v) s = .next { s with constructing := false, reg0 := .holds v, diskPos := n,
                                            ready := !s.dead } ∧
    n ≤ 65535 ∧ n / 256 = v.toNat ∧ (s.diskPos ≤ 65535 → n % 256 = s.diskPos % 256) ∧
    (s.diskPos = 65536 → n = v.toNat * 256)

/-- R114, R121: in CTRL mode 0x69 sends the whole image to the backing file (IO2 where the environment fails it, death with
no file request where there is no path), and every other value is a no-op. -/
def Obligations.ControlWriteSyncsOrNothing : Prop :=
  ∀ (s : State) (v : Byte), diskMode s = some .ctrl →
    (encode (.wr0Ctrl v)).toNat = 0x1000 + v.toNat ∧ exec (.wr 0 v) s = exec (.wr0Ctrl v) s ∧
    (v ≠ 0x69 →
      exec (.wr0Ctrl v) s = .next { s with constructing := false, reg0 := .holds v, ready := !s.dead }) ∧
    (v = 0x69 → s.path = none → exec (.wr0Ctrl v) s = .next (diedIn s)) ∧
    (∀ p, v = 0x69 → s.path = some p → s.draw.fileWriteOk = true →
      exec (.wr0Ctrl v) s = .next { s with constructing := false, reg0 := .holds v, ready := !s.dead,
                                           fileRequests := s.fileRequests ++ [.write p s.img] }) ∧
    (∀ p, v = 0x69 → s.path = some p → s.draw.fileWriteOk = false →
      exec (.wr0Ctrl v) s = .fault (.io2 { s with constructing := false, reg0 := .holds v, ready := false }))

/-! ### DISK: register reads -/

/-- R115, R90: a DATA read returns the prefetched byte, advances and prefetches the next (under `AFTER_HANDLER` it returns
the byte it prefetches); with no byte to prefetch it is MF3, and MF1 comes first under `BEFORE_HANDLER`. -/
def Obligations.DataReadAdvancesThenLoads : Prop :=
  ∀ (s : State), diskMode s = some .data →
    encode .rd0Data = 0x2000 ∧ exec (.rd 0) s = exec .rd0Data s ∧
    (∀ r, s.cfg.readSample = .beforeHandler → s.reg0 = .holds r → s.diskPos < 65535 →
      exec .rd0Data s = .next { s with constructing := false, diskPos := s.diskPos + 1,
                                       reg0 := .holds (memRead s.img (s.diskPos + 1)), ready := !s.dead,
                                       reply := some (.byte r) }) ∧
    (∀ r, s.cfg.readSample = .beforeHandler → s.reg0 = .holds r → 65535 ≤ s.diskPos →
      exec .rd0Data s = .fault (.mf3 (s.diskPos + 1) { s with constructing := false, ready := false })) ∧
    (s.cfg.readSample = .beforeHandler → s.reg0 = .unwritten →
      exec .rd0Data s = .fault (.mf1 0 { s with constructing := false })) ∧
    (s.cfg.readSample = .afterHandler → s.diskPos < 65535 →
      exec .rd0Data s = .next { s with constructing := false, diskPos := s.diskPos + 1,
                                       reg0 := .holds (memRead s.img (s.diskPos + 1)), ready := !s.dead,
                                       reply := some (.byte (memRead s.img (s.diskPos + 1))) }) ∧
    (s.cfg.readSample = .afterHandler → 65535 ≤ s.diskPos →
      exec .rd0Data s = .fault (.mf3 (s.diskPos + 1) { s with constructing := false, ready := false }))

/-- R116: a data-register read outside DATA mode stops in MF4 with the mode, or in MF1 first where the sample of an
unwritten cell comes before the handler; the row stops in every state. -/
def Obligations.ReadOutsideDataFaults : Prop :=
  (∀ (s : State) (m : Mode), diskMode s = some m → m ≠ .data →
    encode .rd0NotData = 0x2000 ∧ exec (.rd 0) s = exec .rd0NotData s ∧
    (s.reg0 ≠ .unwritten ∨ s.cfg.readSample = .afterHandler →
      exec .rd0NotData s = .fault (.mf4 m { s with constructing := false })) ∧
    (s.reg0 = .unwritten → s.cfg.readSample = .beforeHandler →
      exec .rd0NotData s = .fault (.mf1 0 { s with constructing := false }))) ∧
  (∀ (s : State), ∃ f, exec .rd0NotData s = .fault f)

/-- R117: `RD 1` returns `reg[1]` and changes no state of the block; MF1 while it is unwritten. -/
def Obligations.ReadModeRegister : Prop :=
  ∀ (s : State) (m : Mode), diskMode s = some m →
    encode .rd1 = 0x2100 ∧ exec (.rd 1) s = exec .rd1 s ∧
    (∀ v, s.reg1 = .holds v →
      exec .rd1 s = .next { s with constructing := false, reply := some (.byte v) }) ∧
    (s.reg1 = .unwritten → exec .rd1 s = .fault (.mf1 1 { s with constructing := false }))

/-- R184: after a byte has been prefetched, a DATA read returns the byte at the cursor and leaves the next one prefetched;
after a DATA write the next read returns the byte written and passes over the byte at the cursor. -/
def Obligations.ReadWriteAsymmetry : Prop :=
  (∀ (s : State), diskMode s = some .data → s.cfg.readSample = .beforeHandler → s.diskPos < 65535 →
    s.reg0 = .holds (memRead s.img s.diskPos) →
    ∃ t, exec (.rd 0) s = .next t ∧ t.reply = some (.byte (memRead s.img s.diskPos)) ∧
      t.diskPos = s.diskPos + 1 ∧ t.img = s.img ∧ t.reg0 = .holds (memRead t.img t.diskPos)) ∧
  (∀ (s : State) (v : Byte), diskMode s = some .data → s.cfg.readSample = .beforeHandler → s.diskPos + 1 < 65535 →
    Memory.wf s.img = true →
    ∃ t, runList [.wr 0 v, .rd 0] s = .next t ∧ t.reply = some (.byte v) ∧ t.diskPos = s.diskPos + 2 ∧
      t.reg0 = .holds (memRead s.img (s.diskPos + 2)))

/-- R185: a DATA write at 65535 stores there and leaves the cursor at the sentinel 65536; at the sentinel a DATA write,
and a SEEK by 0 or more, kill the device, and a SEEK by a negative offset leaves it, for the position 65536 plus the
offset; a DATA read at 65535 or above is MF3, or MF1 first where its sample of an unwritten cell comes before the handler,
so no such read returns a byte; a switch into DATA at the sentinel is MF3 and one into SECTOR_N is MF5. -/
def Obligations.SentinelBehaviour : Prop :=
  (∀ (s : State) (v : Byte), diskMode s = some .data → s.diskPos = 65535 → Memory.wf s.img = true →
    ∃ t, exec (.wr 0 v) s = .next t ∧ (∀ a, memRead t.img a = if a = 65535 then v else memRead s.img a) ∧
      t = { s with constructing := false, reg0 := .holds v, img := t.img, diskPos := 65536, ready := !s.dead }) ∧
  (∀ (s : State) (v : Byte), diskMode s = some .data → s.diskPos = 65536 → exec (.wr 0 v) s = .next (diedIn s)) ∧
  (∀ (s : State) (v : Byte), diskMode s = some .seek → s.diskPos = 65536 → v.toNat < 128 →
    exec (.wr 0 v) s = .next (diedIn s)) ∧
  (∀ (s : State) (v : Byte), diskMode s = some .seek → s.diskPos = 65536 → 128 ≤ v.toNat →
    exec (.wr 0 v) s = .next { s with constructing := false, reg0 := .holds v, diskPos := 65280 + v.toNat,
                                      ready := !s.dead }) ∧
  (∀ (s : State), diskMode s = some .data → 65535 ≤ s.diskPos → recordOf (exec (.rd 0) s) =
    some (if s.cfg.readSample = .beforeHandler ∧ s.reg0 = .unwritten then .mf1 0 else .mf3 (s.diskPos + 1))) ∧
  (∀ (s : State) (m : Mode), diskMode s = some m → s.diskPos = 65536 →
    (m ≠ .data → recordOf (exec (.wr 1 0x00) s) = some (.mf3 65536)) ∧
    (m ≠ .sectorN → recordOf (exec (.wr 1 0x0C) s) = some (.mf5 65536)))

/-! ### DISK: load, sync, the dead state -/

/-- R122, R124: `LOAD` replaces the image, rewinds the cursor, prefetches the first byte and sets the path, and leaves the
mode and `reg[1]`; ready rises unless the device stays dead, which it does unless `LOAD_CLEARS_DEAD`. A failed read is IO1,
and on OUTPUT the operation is refused. -/
def Obligations.LoadReplacesImage : Prop :=
  ∀ (s : State) (p : Path),
    encode (.load p) = 0xF000 ∧ pathOperand (.load p) = p ∧ roleOf (.load p) = .host ∧
    (∀ bytes, s.cfg.personality = .disk → s.draw.fileRead = some bytes →
      exec (.load p) s = .next { s with
        constructing := false, fileRequests := s.fileRequests ++ [.read p], img := normalizeFile bytes, diskPos := 0,
        reg0 := .holds (memRead (normalizeFile bytes) 0), path := some p,
        dead := s.dead && !s.cfg.loadClearsDead, ready := !(s.dead && !s.cfg.loadClearsDead) }) ∧
    (s.cfg.personality = .disk → s.draw.fileRead = none → exec (.load p) s = .fault (.io1 s)) ∧
    (s.cfg.personality = .output → exec (.load p) s = .refused .rf4)

/-- R123: `normalize` zero-pads or truncates to 65536 bytes. -/
def Obligations.NormalizePadsAndTruncates : Prop :=
  ∀ (bytes : List Byte) (k : Nat),
    memRead (normalizeFile bytes) k = if k < min bytes.length 65536 then bytes.getD k 0 else 0

/-- R43, R55: the file of an image is its 65536 bytes in order, and loading that file gives the image back. -/
def Obligations.FileOfImageLoadsBack : Prop :=
  ∀ (m : Memory), Memory.wf m = true →
    (imageFile m).length = 65536 ∧ (∀ k, k < 65536 → (imageFile m).getD k 0 = memRead m k) ∧
    normalizeFile (imageFile m) = m

/-- R55, R121 to R123, with ImageFrame and DiskStateWriters saying which operations keep the image and the path: after
`LOAD "P"` of bytes `B`, a sync in any later state whose image and path are still the load's writes to `P` the file `B`
zero-padded or truncated to 65536 bytes. -/
def Obligations.LoadThenSyncReproducesFile : Prop :=
  ∀ (s t u : State) (p : Path) (bytes : List Byte), s.cfg.personality = .disk → s.draw.fileRead = some bytes →
    exec (.load p) s = .next t → diskMode u = some .ctrl → u.img = t.img → u.path = t.path →
    u.draw.fileWriteOk = true →
    ∃ v, exec (.wr 0 0x69) u = .next v ∧
      v.fileRequests = u.fileRequests ++ [.write p (normalizeFile bytes)] ∧
      imageFile (normalizeFile bytes) = bytes.take 65536 ++ List.replicate (65536 - bytes.length) 0

/-- R94: every write destination ends with ready raised unless the device is dead, and then with ready low. -/
def Obligations.WriteHandlersEndReadyOrDead : Prop :=
  ∀ (s t : State) (d : WriteDest) (v : Byte), runWrite (some d) v s = .next t → t.ready = !t.dead

/-- R151, R152: on a live DISK block a `WR` kills the device exactly for an unknown mode code, a seek out of range, a DATA
write at the sentinel, or a sync with no path; the state is then the same for every cause. -/
def Obligations.DeviceFaultCauses : Prop :=
  ∀ (s t : State) (idx : Nibble) (v : Byte) (m : Mode), diskMode s = some m → s.dead = false →
    s.diskPos ≤ 65536 → exec (.wr idx v) s = .next t →
    (t.dead = true ↔
      (idx = 1 ∧ resolveMode v = none) ∨
      (idx = 0 ∧ m = .seek ∧ ((s.diskPos : Int) + v.toInt < 0 ∨ 65535 < (s.diskPos : Int) + v.toInt)) ∨
      (idx = 0 ∧ m = .data ∧ s.diskPos = 65536) ∨
      (idx = 0 ∧ m = .ctrl ∧ v = 0x69 ∧ s.path = none)) ∧
    (t.dead = true → t = diedIn s)

/-- R21, R161, R181: no operation leaves the dead state, but a `LOAD` where `LOAD_CLEARS_DEAD` is the parameter. -/
def Obligations.DeadStateIsNotLeft : Prop :=
  ∀ (s t : State) (i : Instr), exec i s = .next t → s.dead = true →
    (s.cfg.loadClearsDead = false ∨ ∀ p, i ≠ .load p) → t.dead = true

/-- R29, R118, R124: every operation, but a `LOAD` where `LOAD_CLEARS_DEAD` is the parameter, leaves a dead device dead,
and, if it is not of the device role, leaves its ready at 0 if it is 0. -/
def Obligations.DeadDeviceNeverReady : Prop :=
  ∀ (s t : State) (i : Instr), exec i s = .next t → s.dead = true →
    (s.cfg.loadClearsDead = false ∨ ∀ p, i ≠ .load p) →
    t.dead = true ∧ (s.ready = false → deviceOp i = false → t.ready = false)

/-! ### OUTPUT -/

/-- R141: an enabled tick hands `reg[0]` to the device action and raises the flag; with the power off or the flag set it
changes nothing; an unwritten `reg[0]` is MF1; on DISK it is refused. -/
def Obligations.TickServesOneRequest : Prop :=
  ∀ (s : State),
    encode .tick = 0xF300 ∧ roleOf .tick = .timer ∧
    (s.cfg.personality = .disk → exec .tick s = .refused .rf4) ∧
    (∀ v, s.cfg.personality = .output → s.power = true → s.flag = false → s.reg0 = .holds v →
      exec .tick s = .next { s with constructing := false, output := s.output ++ [v], flag := true }) ∧
    (s.cfg.personality = .output → s.power = true → s.flag = false → s.reg0 = .unwritten →
      exec .tick s = .fault (.mf1 0 s)) ∧
    (s.cfg.personality = .output → s.power = false ∨ s.flag = true → exec .tick s = .next s)

/-- R142, R143, R24: `PWR` toggles the power and nothing else; `IVL k` selects an interval of `10^k` milliseconds and
nothing else; both are refused on DISK (R71, R157). That the term `IVL k` with `k` above 3, which no word spells, is RF1
whatever the personality, as R157 has it for an integer, is the model's reading (assumption 12). -/
def Obligations.PowerAndIntervalOperations : Prop :=
  ∀ (s : State) (k : Byte),
    encode .pwr = 0xF100 ∧ (encode (.ivl k)).toNat = 0xF200 + k.toNat ∧ roleOf .pwr = .host ∧
    roleOf (.ivl k) = .host ∧
    (s.cfg.personality = .output → exec .pwr s = .next { s with constructing := false, power := !s.power }) ∧
    (s.cfg.personality = .disk → exec .pwr s = .refused .rf4) ∧
    (s.cfg.personality = .output → k.toNat ≤ 3 → ∃ t, exec (.ivl k) s = .next t ∧
      intervalMs t = 10 ^ k.toNat ∧ t = { s with constructing := false, intervalK := t.intervalK }) ∧
    (s.cfg.personality = .disk → k.toNat ≤ 3 → exec (.ivl k) s = .refused .rf4) ∧
    (3 < k.toNat → exec (.ivl k) s = .refused .rf1)

/-- R27, R144, R141: the output trace only grows, and only by a tick, by the byte `reg[0]` held. -/
def Obligations.OutputTraceGrowsByTicks : Prop :=
  ∀ (s t : State) (i : Instr), exec i s = .next t →
    t.output = s.output ∨ (i = .tick ∧ ∃ v, s.reg0 = .holds v ∧ t.output = s.output ++ [v])

/-- R145: on an OUTPUT block with nothing bound, no operation of the CPU, the host or the timer writes ready. -/
def Obligations.OutputNeverTouchesReady : Prop :=
  ∀ (s t : State) (i : Instr) (disk : Option Mode), exec i s = .next t → s.cfg.personality = .output →
    unbound s = true → diskMode s = disk → rowApplies disk i = true → deviceOp i = false → t.ready = s.ready

/-- R167, R142: the power gates the tick and nothing else: every other operation does the same whatever the power is,
in the next state, in the fault and its fault point, and in the refusal. -/
def Obligations.PowerGatesOnlyTheTick : Prop :=
  ∀ (s : State) (i : Instr) (b : Bool), i ≠ .tick → i ≠ .pwr →
    exec i { s with power := b } = mapState (fun t => { t with power := b }) (exec i s)

/-- R143, R189: no operation but `IVL` reads or writes the interval, in the next state, in the fault and its fault point,
and in the refusal, so that none depends on any time. -/
def Obligations.NoRuleReadsTheInterval : Prop :=
  ∀ (s : State) (i : Instr) (k : BitVec 2), (∀ n, i ≠ .ivl n) →
    exec i { s with intervalK := k } = mapState (fun t => { t with intervalK := k }) (exec i s)

/-! ### Who writes what, over every operation -/

/-- R16, R17: no operation changes the personality or a parameter, and after construction none changes a binding. -/
def Obligations.ConfigurationIsFixed : Prop :=
  ∀ (s t : State) (i : Instr), exec i s = .next t →
    t.cfg = s.cfg ∧
    (s.constructing = false → t.constructing = false ∧ t.wdest0 = s.wdest0 ∧ t.wdest1 = s.wdest1
      ∧ t.rdest0 = s.rdest0 ∧ t.rdest1 = s.rdest1) ∧
    ((∀ j d, i ≠ .bindw j d) → t.wdest0 = s.wdest0 ∧ t.wdest1 = s.wdest1) ∧
    ((∀ j d, i ≠ .bindr j d) → t.rdest0 = s.rdest0 ∧ t.rdest1 = s.rdest1)

/-- R15, R125: the flag is raised only by `SETFLG` and by a tick, and lowered only by `CLF`. -/
def Obligations.FlagWriters : Prop :=
  ∀ (s t : State) (i : Instr), exec i s = .next t → t.flag ≠ s.flag →
    (t.flag = true ∧ (i = .setFlg ∨ i = .tick)) ∨ (t.flag = false ∧ i = .clf)

/-- R54, R18: the image changes only by a `LOAD` and by a write that runs the DATA-mode handler, and such a write changes
only the byte at the cursor; with the binding table of R100 that write is one of register 0. -/
def Obligations.ImageFrame : Prop :=
  ∀ (s t : State) (i : Instr), exec i s = .next t → (∀ p, i ≠ .load p) → Memory.wf s.img = true →
    (∀ a, (∀ v, i ≠ .wr0Data v) → ¬ (s.mode = .data ∧ ∃ j v, i = .wr j v) → memRead t.img a = memRead s.img a) ∧
    (∀ a, a ≠ s.diskPos → memRead t.img a = memRead s.img a) ∧
    (∀ m, diskMode s = some m → ∀ v, i = .wr 1 v → t.img = s.img)

/-- R20, R22, R19, R95: the mode changes only by a write of that mode's selector code, the path only by `LOAD`, the cursor
only by `WR`, `RD` and `LOAD` forms, and a file request is made only by `LOAD` and by a write of 0x69; with the binding
table of R100 the write that changes the mode is not of register 0 and the one that makes a request is not of
register 1. -/
def Obligations.DiskStateWriters : Prop :=
  ∀ (s t : State) (i : Instr), exec i s = .next t →
    (t.mode ≠ s.mode → ∃ code, resolveMode code = some t.mode ∧
      (i = .wr 1 code ∨ i = .wr 0 code ∨ i = selectMode1 code ∨ i = .selInvalid code)) ∧
    (t.path ≠ s.path → ∃ p, i = .load p ∧ t.path = some p) ∧
    (t.diskPos ≠ s.diskPos →
      (roleOf i = .cpu ∧ i ≠ .rdy ∧ i ≠ .rflag ∧ i ≠ .clf) ∨ ∃ p, i = .load p) ∧
    (t.fileRequests ≠ s.fileRequests →
      (∃ p, i = .load p ∧ t.fileRequests = s.fileRequests ++ [.read p]) ∨
      ((i = .wr 0 0x69 ∨ i = .wr 1 0x69 ∨ i = .wr0Ctrl 0x69) ∧
        ∃ p, s.path = some p ∧ t.fileRequests = s.fileRequests ++ [.write p s.img])) ∧
    (∀ m, diskMode s = some m →
      (t.mode ≠ s.mode → ∀ v, i ≠ .wr 0 v) ∧ (t.fileRequests ≠ s.fileRequests → ∀ v, i ≠ .wr 1 v))

/-- R23, R24: the power changes only by `PWR` and the interval only by `IVL`. R11, R14, R141 to R143, R145: `PWR`, `IVL`
and `TICK` write neither cell and not ready. -/
def Obligations.OutputStateWriters : Prop :=
  ∀ (s t : State) (i : Instr), exec i s = .next t →
    (t.power ≠ s.power → i = .pwr) ∧ (t.intervalK ≠ s.intervalK → ∃ k, i = .ivl k) ∧
    (i = .pwr ∨ i = .tick ∨ (∃ k, i = .ivl k) → t.reg0 = s.reg0 ∧ t.reg1 = s.reg1 ∧ t.ready = s.ready)

/-! ### Sequences -/

/-- R78: `GOTO p` leaves the cursor at `p` and the mode SECTOR_N from any start, the sentinel and the dead state
included. -/
def Obligations.GotoReachesPosition : Prop :=
  ∀ (s : State) (m : Mode) (p : Nat), diskMode s = some m → s.diskPos ≤ 65536 → p ≤ 65535 →
    ∃ t, runList (expandPseudo (.goto p)) s = .next t ∧ t.diskPos = p ∧ t.mode = .sectorN ∧
      t.img = s.img ∧ t.dead = s.dead ∧ t.ready = !s.dead

/-- R78: `SEEK o` moves the cursor by `o` where the target is in range, and `SYNC` writes the image to the path; they leave
the modes SEEK and CTRL. -/
def Obligations.SeekAndSyncPseudo : Prop :=
  ∀ (s : State) (m : Mode), diskMode s = some m →
    (∀ (o : Int), pseudoInRange (.seek o) = true → 0 ≤ (s.diskPos : Int) + o → (s.diskPos : Int) + o ≤ 65535 →
      ∃ t, runList (expandPseudo (.seek o)) s = .next t ∧ (t.diskPos : Int) = (s.diskPos : Int) + o ∧
        t.mode = .seek) ∧
    (∀ p, s.path = some p → s.draw.fileWriteOk = true →
      ∃ t, runList (expandPseudo .sync) s = .next t ∧ t.mode = .ctrl ∧
        t.fileRequests = s.fileRequests ++ [.write p s.img])

/-- R183: on a DISK block, whatever ready was, a `WR` that completes is followed by a `RDY` that returns 1 exactly if the
device is not dead. -/
def Obligations.ReadyAfterWrite : Prop :=
  ∀ (s t : State) (m : Mode) (idx : Nibble) (v : Byte), diskMode s = some m → exec (.wr idx v) s = .next t →
    ∃ u, exec .rdy t = .next u ∧ u.reply = some (.bit (!t.dead))

/-! ### Invariant -/

/-- R29, R140, R7: every step keeps the invariant: the cursor in 0 to 65536, a dead device not ready, the image in
canonical form, nothing bound on OUTPUT, and only agents presenting operations. -/
def Obligations.StepKeepsInvariant : Prop :=
  ∀ (s t : State), Inv s → step s = .next t → Inv t

/-- R29 and U9 of 93_implementation_defined.md: a step that ends in a fault leaves the run in a faulted state that keeps the
invariant, a dead device's low ready included. -/
def Obligations.FaultedStateKeepsInvariant : Prop :=
  ∀ (s : State) (f : Fault), Inv s → step s = .fault f → Inv (faulted f)
end

