-- ==== Sys2Proof/Laws/Decode.lean ====
section
/-! SUPPORT. The transaction word as its three fields: the fields of a word built from fields, and a word rebuilt from its
own. -/

namespace Sys2Proof

theorem mkWord_toNat (op idx : Nibble) (val : Byte) :
    (mkWord op idx val).toNat = op.toNat * 4096 + idx.toNat * 256 + val.toNat := by
  have := idx.isLt
  have := val.isLt
  rw [mkWord, BitVec.toNat_append, BitVec.toNat_append, ← Nat.shiftLeft_add_eq_or_of_lt (by omega),
    ← Nat.shiftLeft_add_eq_or_of_lt (by omega), Nat.shiftLeft_eq, Nat.shiftLeft_eq]
  omega

theorem opField_toNat (w : Word) : (opField w).toNat = w.toNat / 4096 := by
  have := w.isLt
  simp only [opField, BitVec.extractLsb'_toNat, Nat.shiftRight_eq_div_pow]
  omega

theorem idxField_toNat (w : Word) : (idxField w).toNat = w.toNat / 256 % 16 := by
  simp only [idxField, BitVec.extractLsb'_toNat, Nat.shiftRight_eq_div_pow]

theorem valField_toNat (w : Word) : (valField w).toNat = w.toNat % 256 := by
  simp only [valField, BitVec.extractLsb'_toNat, Nat.shiftRight_zero]

@[simp] theorem opField_mkWord (op idx : Nibble) (val : Byte) : opField (mkWord op idx val) = op := by
  apply BitVec.eq_of_toNat_eq
  have := idx.isLt
  have := val.isLt
  rw [opField_toNat, mkWord_toNat]
  omega

@[simp] theorem idxField_mkWord (op idx : Nibble) (val : Byte) : idxField (mkWord op idx val) = idx := by
  apply BitVec.eq_of_toNat_eq
  have := idx.isLt
  have := val.isLt
  rw [idxField_toNat, mkWord_toNat]
  omega

@[simp] theorem valField_mkWord (op idx : Nibble) (val : Byte) : valField (mkWord op idx val) = val := by
  apply BitVec.eq_of_toNat_eq
  have := val.isLt
  rw [valField_toNat, mkWord_toNat]
  omega

/-- A word is its three fields. -/
@[simp] theorem mkWord_fields (w : Word) : mkWord (opField w) (idxField w) (valField w) = w := by
  apply BitVec.eq_of_toNat_eq
  rw [mkWord_toNat, opField_toNat, idxField_toNat, valField_toNat]
  omega

end Sys2Proof
end

