-- ==== Sys2Proof/Laws/Memory.lean ====
section
/-! SUPPORT. The image as memory: every operation keeps the canonical form, a byte written reads back and leaves every
other byte alone, two canonical images that read alike are one, and what a loaded file reads as. -/

namespace Sys2Proof.Machine

/-- The four facts of `Memory.wfFrom` at an entry. -/
theorem wfFrom_cons {lo a : Nat} {b : Byte} {m : Memory} :
    Memory.wfFrom lo ((a, b) :: m) = true ↔ lo ≤ a ∧ a < imageSize ∧ b ≠ 0 ∧ Memory.wfFrom (a + 1) m = true := by
  simp [Memory.wfFrom, and_assoc]

theorem wfFrom_mono {lo hi : Nat} {m : Memory} (h : Memory.wfFrom hi m = true) (hle : lo ≤ hi) :
    Memory.wfFrom lo m = true := by
  cases m with
  | nil => rfl
  | cons c m =>
    obtain ⟨a, b⟩ := c
    rw [wfFrom_cons] at h ⊢
    exact ⟨hle.trans h.1, h.2⟩

/-- A canonical image holds nothing below its first address. -/
theorem memRead_below {m : Memory} : ∀ {lo p : Nat}, Memory.wfFrom lo m = true → p < lo → memRead m p = 0 := by
  induction m with
  | nil => intros; rfl
  | cons c m ih =>
    obtain ⟨a, b⟩ := c
    intro lo p h hp
    rw [wfFrom_cons] at h
    simp only [memRead]
    rw [if_neg (by omega)]
    exact ih h.2.2.2 (by omega)

/-- A canonical image holds nothing at or above `imageSize`. -/
theorem memRead_above {m : Memory} : ∀ {lo p : Nat}, Memory.wfFrom lo m = true → imageSize ≤ p → memRead m p = 0 := by
  induction m with
  | nil => intros; rfl
  | cons c m ih =>
    obtain ⟨a, b⟩ := c
    intro lo p h hp
    rw [wfFrom_cons] at h
    simp only [memRead]
    rw [if_neg (by omega)]
    exact ih h.2.2.2 hp

theorem memWrite_wfFrom {m : Memory} : ∀ {lo p : Nat} {v : Byte}, Memory.wfFrom lo m = true → lo ≤ p →
    p < imageSize → Memory.wfFrom lo (memWrite m p v) = true := by
  induction m with
  | nil =>
    intro lo p v _ hlo hp
    simp only [memWrite]
    split
    · rfl
    · next hv => rw [wfFrom_cons]; exact ⟨hlo, hp, hv, rfl⟩
  | cons c m ih =>
    obtain ⟨a, b⟩ := c
    intro lo p v h hlo hp
    have h' := wfFrom_cons.mp h
    simp only [memWrite]
    split
    · split
      · exact h
      · next hv =>
        rw [wfFrom_cons]
        exact ⟨hlo, hp, hv, wfFrom_cons.mpr ⟨by omega, h'.2⟩⟩
    · split
      · next hpa =>
        subst hpa
        split
        · exact wfFrom_mono h'.2.2.2 (by omega)
        · next hv => exact wfFrom_cons.mpr ⟨hlo, hp, hv, h'.2.2.2⟩
      · exact wfFrom_cons.mpr ⟨h'.1, h'.2.1, h'.2.2.1, ih h'.2.2.2 (by omega) hp⟩

/-- Writing a byte of the image keeps the canonical form. -/
theorem memWrite_wf {m : Memory} {p : Nat} {v : Byte} (h : Memory.wf m = true) (hp : p < imageSize) :
    Memory.wf (memWrite m p v) = true := memWrite_wfFrom h (Nat.zero_le p) hp

theorem memRead_memWrite_from {m : Memory} : ∀ {lo : Nat} {p : Nat} {v : Byte}, Memory.wfFrom lo m = true →
    ∀ a, memRead (memWrite m p v) a = if a = p then v else memRead m a := by
  induction m with
  | nil =>
    intro lo p v _ a
    by_cases hv : v = 0
    · simp [memWrite, hv, memRead]
    · simp only [memWrite, hv, memRead, if_false, eq_comm (a := a)]
  | cons c m ih =>
    obtain ⟨b, w⟩ := c
    intro lo p v h a
    have h' := wfFrom_cons.mp h
    simp only [memWrite]
    split
    · next hpb =>
      split
      · next hv =>
        split
        · next hap => rw [hv, hap]; exact memRead_below (lo := b) (wfFrom_cons.mpr ⟨le_refl _, h'.2⟩) hpb
        · rfl
      · simp only [memRead, eq_comm (a := p)]
    · split
      · next hpb =>
        subst hpb
        split
        · next hv =>
          by_cases hap : a = p
          · rw [if_pos hap, hv, hap]; exact memRead_below h'.2.2.2 (by omega)
          · simp [memRead, hap, eq_comm (a := p)]
        · by_cases hap : a = p
          · simp [memRead, hap]
          · simp [memRead, hap, eq_comm (a := p)]
      · next hpb _ =>
        simp only [memRead, ih h'.2.2.2]
        by_cases hba : b = a
        · rw [if_pos hba, if_neg (by omega), if_pos hba]
        · simp [hba]

/-- A byte written reads back, and every other byte reads as before. -/
theorem memRead_memWrite {m : Memory} {p : Nat} {v : Byte} (h : Memory.wf m = true) (a : Nat) :
    memRead (memWrite m p v) a = if a = p then v else memRead m a := memRead_memWrite_from h a

/-- Two canonical images that read alike everywhere are one: equal images are equal data. -/
theorem memory_ext {m : Memory} : ∀ {n : Memory} {lo : Nat}, Memory.wfFrom lo m = true → Memory.wfFrom lo n = true →
    (∀ a, memRead m a = memRead n a) → m = n := by
  induction m with
  | nil =>
    intro n lo _ hn h
    cases n with
    | nil => rfl
    | cons c n =>
      obtain ⟨b, w⟩ := c
      have := h b
      simp only [memRead, if_true] at this
      exact absurd this.symm (wfFrom_cons.mp hn).2.2.1
  | cons c m ih =>
    obtain ⟨a, b⟩ := c
    intro n lo hm hn h
    have hm' := wfFrom_cons.mp hm
    cases n with
    | nil =>
      have := h a
      simp only [memRead, if_true] at this
      exact absurd this hm'.2.2.1
    | cons c n =>
      obtain ⟨a', b'⟩ := c
      have hn' := wfFrom_cons.mp hn
      have haa : a = a' := by
        rcases lt_trichotomy a a' with hlt | heq | hgt
        · have := h a
          simp only [memRead, if_true] at this
          rw [if_neg (by omega), memRead_below hn'.2.2.2 (by omega)] at this
          exact absurd this hm'.2.2.1
        · exact heq
        · have := h a'
          simp only [memRead, if_true] at this
          rw [if_neg (by omega), memRead_below hm'.2.2.2 (by omega)] at this
          exact absurd this.symm hn'.2.2.1
      subst haa
      have hb : b = b' := by simpa [memRead] using h a
      subst hb
      congr 1
      refine ih hm'.2.2.2 hn'.2.2.2 fun p => ?_
      by_cases hp : a = p
      · subst hp
        rw [memRead_below hm'.2.2.2 (by omega), memRead_below hn'.2.2.2 (by omega)]
      · have := h p
        simpa [memRead, hp] using this

theorem imageFrom_wfFrom {bytes : List Byte} : ∀ {k : Nat}, k + bytes.length ≤ imageSize →
    Memory.wfFrom k (imageFrom k bytes) = true := by
  induction bytes with
  | nil => intros; rfl
  | cons b bs ih =>
    intro k h
    simp only [List.length_cons] at h
    have ih' := ih (k := k + 1) (by omega)
    simp only [imageFrom]
    split
    · exact wfFrom_mono ih' (by omega)
    · next hb => exact wfFrom_cons.mpr ⟨le_refl _, by omega, hb, ih'⟩

/-- A loaded file is an image in canonical form. -/
theorem normalizeFile_wf (bytes : List Byte) : Memory.wf (normalizeFile bytes) = true := by
  refine imageFrom_wfFrom ?_
  simp only [List.length_take]
  omega

/-- The reset image is in canonical form. -/
theorem reset_image_wf : Memory.wf State.reset.img = true := by decide

end Sys2Proof.Machine
end

