-- ==== Sys2Proof/Laws/Outcome.lean ====
section
/-! SUPPORT. The shared sequencing operations of Ops, each said once: when it answers a next state. -/

namespace Sys2Proof.Machine

@[simp] theorem andThen_next (s : State) (k : State → Out) : andThen (.next s) k = k s := rfl
@[simp] theorem andThen_fault (f : Fault) (k : State → Out) : andThen (.fault f) k = .fault f := rfl
@[simp] theorem andThen_refused (r : Refusal) (k : State → Out) : andThen (.refused r) k = .refused r := rfl
@[simp] theorem withValue_ok {α : Type} (a : α) (k : α → Out) : withValue (.ok a) k = k a := rfl
@[simp] theorem withValue_error {α : Type} (f : Fault) (k : α → Out) :
    withValue (.error f : Except Fault α) k = .fault f := rfl
@[simp] theorem requireThat_true (r : Refusal) (k : Out) : requireThat true r k = k := rfl
@[simp] theorem requireThat_false (r : Refusal) (k : Out) : requireThat false r k = .refused r := rfl

theorem andThen_eq_next {o : Out} {k : State → Out} {t : State} :
    andThen o k = .next t ↔ ∃ u, o = .next u ∧ k u = .next t := by
  cases o <;> simp

theorem withValue_eq_next {α : Type} {v : Except Fault α} {k : α → Out} {t : State} :
    withValue v k = .next t ↔ ∃ a, v = .ok a ∧ k a = .next t := by
  cases v <;> simp

theorem requireThat_eq_next {c : Bool} {r : Refusal} {k : Out} {t : State} :
    requireThat c r k = .next t ↔ c = true ∧ k = .next t := by
  cases c <;> simp

theorem readReg_eq_ok {i : Nat} {s : State} {v : Byte} :
    readReg i s = .ok v ↔ regCell i s = .holds v := by
  unfold readReg; split <;> simp_all

theorem readImg_eq_ok {p : Nat} {s : State} {v : Byte} :
    readImg p s = .ok v ↔ p < imageSize ∧ v = memRead s.img p := by
  unfold readImg
  split <;> rename_i h <;> simp [h, eq_comm]

theorem writeImg_eq_ok {p : Nat} {v : Byte} {s t : State} :
    writeImg p v s = .ok t ↔ p < imageSize ∧ t = { s with img := memWrite s.img p v } := by
  unfold writeImg
  split <;> rename_i h <;> simp [h, eq_comm]

end Sys2Proof.Machine
end

