-- ==== Sys2Proof/Laws/State.lean ====
section
/-! SUPPORT. One lemma per field per update of State: what each of the small updates every meaning is built from leaves in
each field. All are simp lemmas, so that no later proof unfolds an update. -/

namespace Sys2Proof.Machine

variable (s : State)

@[simp] theorem performed_cfg : (performed s).cfg = s.cfg := rfl
@[simp] theorem performed_wdest0 : (performed s).wdest0 = s.wdest0 := rfl
@[simp] theorem performed_wdest1 : (performed s).wdest1 = s.wdest1 := rfl
@[simp] theorem performed_rdest0 : (performed s).rdest0 = s.rdest0 := rfl
@[simp] theorem performed_rdest1 : (performed s).rdest1 = s.rdest1 := rfl
@[simp] theorem performed_constructing : (performed s).constructing = false := rfl
@[simp] theorem performed_reg0 : (performed s).reg0 = s.reg0 := rfl
@[simp] theorem performed_reg1 : (performed s).reg1 = s.reg1 := rfl
@[simp] theorem performed_ready : (performed s).ready = s.ready := rfl
@[simp] theorem performed_flag : (performed s).flag = s.flag := rfl
@[simp] theorem performed_img : (performed s).img = s.img := rfl
@[simp] theorem performed_diskPos : (performed s).diskPos = s.diskPos := rfl
@[simp] theorem performed_mode : (performed s).mode = s.mode := rfl
@[simp] theorem performed_dead : (performed s).dead = s.dead := rfl
@[simp] theorem performed_path : (performed s).path = s.path := rfl
@[simp] theorem performed_power : (performed s).power = s.power := rfl
@[simp] theorem performed_intervalK : (performed s).intervalK = s.intervalK := rfl
@[simp] theorem performed_output : (performed s).output = s.output := rfl
@[simp] theorem performed_faultRecord : (performed s).faultRecord = s.faultRecord := rfl
@[simp] theorem performed_pending : (performed s).pending = s.pending := rfl
@[simp] theorem performed_draw : (performed s).draw = s.draw := rfl
@[simp] theorem performed_fileRequests : (performed s).fileRequests = s.fileRequests := rfl
@[simp] theorem performed_reply : (performed s).reply = s.reply := rfl

@[simp] theorem returning_cfg (r : Reply) : (returning r s).cfg = s.cfg := rfl
@[simp] theorem returning_wdest0 (r : Reply) : (returning r s).wdest0 = s.wdest0 := rfl
@[simp] theorem returning_wdest1 (r : Reply) : (returning r s).wdest1 = s.wdest1 := rfl
@[simp] theorem returning_rdest0 (r : Reply) : (returning r s).rdest0 = s.rdest0 := rfl
@[simp] theorem returning_rdest1 (r : Reply) : (returning r s).rdest1 = s.rdest1 := rfl
@[simp] theorem returning_constructing (r : Reply) : (returning r s).constructing = s.constructing := rfl
@[simp] theorem returning_reg0 (r : Reply) : (returning r s).reg0 = s.reg0 := rfl
@[simp] theorem returning_reg1 (r : Reply) : (returning r s).reg1 = s.reg1 := rfl
@[simp] theorem returning_ready (r : Reply) : (returning r s).ready = s.ready := rfl
@[simp] theorem returning_flag (r : Reply) : (returning r s).flag = s.flag := rfl
@[simp] theorem returning_img (r : Reply) : (returning r s).img = s.img := rfl
@[simp] theorem returning_diskPos (r : Reply) : (returning r s).diskPos = s.diskPos := rfl
@[simp] theorem returning_mode (r : Reply) : (returning r s).mode = s.mode := rfl
@[simp] theorem returning_dead (r : Reply) : (returning r s).dead = s.dead := rfl
@[simp] theorem returning_path (r : Reply) : (returning r s).path = s.path := rfl
@[simp] theorem returning_power (r : Reply) : (returning r s).power = s.power := rfl
@[simp] theorem returning_intervalK (r : Reply) : (returning r s).intervalK = s.intervalK := rfl
@[simp] theorem returning_output (r : Reply) : (returning r s).output = s.output := rfl
@[simp] theorem returning_faultRecord (r : Reply) : (returning r s).faultRecord = s.faultRecord := rfl
@[simp] theorem returning_pending (r : Reply) : (returning r s).pending = s.pending := rfl
@[simp] theorem returning_draw (r : Reply) : (returning r s).draw = s.draw := rfl
@[simp] theorem returning_fileRequests (r : Reply) : (returning r s).fileRequests = s.fileRequests := rfl
@[simp] theorem returning_reply (r : Reply) : (returning r s).reply = some r := rfl

@[simp] theorem die_cfg : (die s).cfg = s.cfg := rfl
@[simp] theorem die_wdest0 : (die s).wdest0 = s.wdest0 := rfl
@[simp] theorem die_wdest1 : (die s).wdest1 = s.wdest1 := rfl
@[simp] theorem die_rdest0 : (die s).rdest0 = s.rdest0 := rfl
@[simp] theorem die_rdest1 : (die s).rdest1 = s.rdest1 := rfl
@[simp] theorem die_constructing : (die s).constructing = s.constructing := rfl
@[simp] theorem die_reg0 : (die s).reg0 = .holds deadValue := rfl
@[simp] theorem die_reg1 : (die s).reg1 = .holds deadValue := rfl
@[simp] theorem die_ready : (die s).ready = s.ready := rfl
@[simp] theorem die_flag : (die s).flag = s.flag := rfl
@[simp] theorem die_img : (die s).img = s.img := rfl
@[simp] theorem die_diskPos : (die s).diskPos = s.diskPos := rfl
@[simp] theorem die_mode : (die s).mode = s.mode := rfl
@[simp] theorem die_dead : (die s).dead = true := rfl
@[simp] theorem die_path : (die s).path = s.path := rfl
@[simp] theorem die_power : (die s).power = s.power := rfl
@[simp] theorem die_intervalK : (die s).intervalK = s.intervalK := rfl
@[simp] theorem die_output : (die s).output = s.output := rfl
@[simp] theorem die_faultRecord : (die s).faultRecord = s.faultRecord := rfl
@[simp] theorem die_pending : (die s).pending = s.pending := rfl
@[simp] theorem die_draw : (die s).draw = s.draw := rfl
@[simp] theorem die_fileRequests : (die s).fileRequests = s.fileRequests := rfl
@[simp] theorem die_reply : (die s).reply = s.reply := rfl

@[simp] theorem setReady_cfg : (setReady s).cfg = s.cfg := rfl
@[simp] theorem setReady_wdest0 : (setReady s).wdest0 = s.wdest0 := rfl
@[simp] theorem setReady_wdest1 : (setReady s).wdest1 = s.wdest1 := rfl
@[simp] theorem setReady_rdest0 : (setReady s).rdest0 = s.rdest0 := rfl
@[simp] theorem setReady_rdest1 : (setReady s).rdest1 = s.rdest1 := rfl
@[simp] theorem setReady_constructing : (setReady s).constructing = s.constructing := rfl
@[simp] theorem setReady_reg0 : (setReady s).reg0 = s.reg0 := rfl
@[simp] theorem setReady_reg1 : (setReady s).reg1 = s.reg1 := rfl
@[simp] theorem setReady_ready : (setReady s).ready = true := rfl
@[simp] theorem setReady_flag : (setReady s).flag = s.flag := rfl
@[simp] theorem setReady_img : (setReady s).img = s.img := rfl
@[simp] theorem setReady_diskPos : (setReady s).diskPos = s.diskPos := rfl
@[simp] theorem setReady_mode : (setReady s).mode = s.mode := rfl
@[simp] theorem setReady_dead : (setReady s).dead = s.dead := rfl
@[simp] theorem setReady_path : (setReady s).path = s.path := rfl
@[simp] theorem setReady_power : (setReady s).power = s.power := rfl
@[simp] theorem setReady_intervalK : (setReady s).intervalK = s.intervalK := rfl
@[simp] theorem setReady_output : (setReady s).output = s.output := rfl
@[simp] theorem setReady_faultRecord : (setReady s).faultRecord = s.faultRecord := rfl
@[simp] theorem setReady_pending : (setReady s).pending = s.pending := rfl
@[simp] theorem setReady_draw : (setReady s).draw = s.draw := rfl
@[simp] theorem setReady_fileRequests : (setReady s).fileRequests = s.fileRequests := rfl
@[simp] theorem setReady_reply : (setReady s).reply = s.reply := rfl

@[simp] theorem unsetReady_cfg : (unsetReady s).cfg = s.cfg := rfl
@[simp] theorem unsetReady_wdest0 : (unsetReady s).wdest0 = s.wdest0 := rfl
@[simp] theorem unsetReady_wdest1 : (unsetReady s).wdest1 = s.wdest1 := rfl
@[simp] theorem unsetReady_rdest0 : (unsetReady s).rdest0 = s.rdest0 := rfl
@[simp] theorem unsetReady_rdest1 : (unsetReady s).rdest1 = s.rdest1 := rfl
@[simp] theorem unsetReady_constructing : (unsetReady s).constructing = s.constructing := rfl
@[simp] theorem unsetReady_reg0 : (unsetReady s).reg0 = s.reg0 := rfl
@[simp] theorem unsetReady_reg1 : (unsetReady s).reg1 = s.reg1 := rfl
@[simp] theorem unsetReady_ready : (unsetReady s).ready = false := rfl
@[simp] theorem unsetReady_flag : (unsetReady s).flag = s.flag := rfl
@[simp] theorem unsetReady_img : (unsetReady s).img = s.img := rfl
@[simp] theorem unsetReady_diskPos : (unsetReady s).diskPos = s.diskPos := rfl
@[simp] theorem unsetReady_mode : (unsetReady s).mode = s.mode := rfl
@[simp] theorem unsetReady_dead : (unsetReady s).dead = s.dead := rfl
@[simp] theorem unsetReady_path : (unsetReady s).path = s.path := rfl
@[simp] theorem unsetReady_power : (unsetReady s).power = s.power := rfl
@[simp] theorem unsetReady_intervalK : (unsetReady s).intervalK = s.intervalK := rfl
@[simp] theorem unsetReady_output : (unsetReady s).output = s.output := rfl
@[simp] theorem unsetReady_faultRecord : (unsetReady s).faultRecord = s.faultRecord := rfl
@[simp] theorem unsetReady_pending : (unsetReady s).pending = s.pending := rfl
@[simp] theorem unsetReady_draw : (unsetReady s).draw = s.draw := rfl
@[simp] theorem unsetReady_fileRequests : (unsetReady s).fileRequests = s.fileRequests := rfl
@[simp] theorem unsetReady_reply : (unsetReady s).reply = s.reply := rfl

@[simp] theorem setFlag_cfg : (setFlag s).cfg = s.cfg := rfl
@[simp] theorem setFlag_wdest0 : (setFlag s).wdest0 = s.wdest0 := rfl
@[simp] theorem setFlag_wdest1 : (setFlag s).wdest1 = s.wdest1 := rfl
@[simp] theorem setFlag_rdest0 : (setFlag s).rdest0 = s.rdest0 := rfl
@[simp] theorem setFlag_rdest1 : (setFlag s).rdest1 = s.rdest1 := rfl
@[simp] theorem setFlag_constructing : (setFlag s).constructing = s.constructing := rfl
@[simp] theorem setFlag_reg0 : (setFlag s).reg0 = s.reg0 := rfl
@[simp] theorem setFlag_reg1 : (setFlag s).reg1 = s.reg1 := rfl
@[simp] theorem setFlag_ready : (setFlag s).ready = s.ready := rfl
@[simp] theorem setFlag_flag : (setFlag s).flag = true := rfl
@[simp] theorem setFlag_img : (setFlag s).img = s.img := rfl
@[simp] theorem setFlag_diskPos : (setFlag s).diskPos = s.diskPos := rfl
@[simp] theorem setFlag_mode : (setFlag s).mode = s.mode := rfl
@[simp] theorem setFlag_dead : (setFlag s).dead = s.dead := rfl
@[simp] theorem setFlag_path : (setFlag s).path = s.path := rfl
@[simp] theorem setFlag_power : (setFlag s).power = s.power := rfl
@[simp] theorem setFlag_intervalK : (setFlag s).intervalK = s.intervalK := rfl
@[simp] theorem setFlag_output : (setFlag s).output = s.output := rfl
@[simp] theorem setFlag_faultRecord : (setFlag s).faultRecord = s.faultRecord := rfl
@[simp] theorem setFlag_pending : (setFlag s).pending = s.pending := rfl
@[simp] theorem setFlag_draw : (setFlag s).draw = s.draw := rfl
@[simp] theorem setFlag_fileRequests : (setFlag s).fileRequests = s.fileRequests := rfl
@[simp] theorem setFlag_reply : (setFlag s).reply = s.reply := rfl

@[simp] theorem clearFlag_cfg : (clearFlag s).cfg = s.cfg := rfl
@[simp] theorem clearFlag_wdest0 : (clearFlag s).wdest0 = s.wdest0 := rfl
@[simp] theorem clearFlag_wdest1 : (clearFlag s).wdest1 = s.wdest1 := rfl
@[simp] theorem clearFlag_rdest0 : (clearFlag s).rdest0 = s.rdest0 := rfl
@[simp] theorem clearFlag_rdest1 : (clearFlag s).rdest1 = s.rdest1 := rfl
@[simp] theorem clearFlag_constructing : (clearFlag s).constructing = s.constructing := rfl
@[simp] theorem clearFlag_reg0 : (clearFlag s).reg0 = s.reg0 := rfl
@[simp] theorem clearFlag_reg1 : (clearFlag s).reg1 = s.reg1 := rfl
@[simp] theorem clearFlag_ready : (clearFlag s).ready = s.ready := rfl
@[simp] theorem clearFlag_flag : (clearFlag s).flag = false := rfl
@[simp] theorem clearFlag_img : (clearFlag s).img = s.img := rfl
@[simp] theorem clearFlag_diskPos : (clearFlag s).diskPos = s.diskPos := rfl
@[simp] theorem clearFlag_mode : (clearFlag s).mode = s.mode := rfl
@[simp] theorem clearFlag_dead : (clearFlag s).dead = s.dead := rfl
@[simp] theorem clearFlag_path : (clearFlag s).path = s.path := rfl
@[simp] theorem clearFlag_power : (clearFlag s).power = s.power := rfl
@[simp] theorem clearFlag_intervalK : (clearFlag s).intervalK = s.intervalK := rfl
@[simp] theorem clearFlag_output : (clearFlag s).output = s.output := rfl
@[simp] theorem clearFlag_faultRecord : (clearFlag s).faultRecord = s.faultRecord := rfl
@[simp] theorem clearFlag_pending : (clearFlag s).pending = s.pending := rfl
@[simp] theorem clearFlag_draw : (clearFlag s).draw = s.draw := rfl
@[simp] theorem clearFlag_fileRequests : (clearFlag s).fileRequests = s.fileRequests := rfl
@[simp] theorem clearFlag_reply : (clearFlag s).reply = s.reply := rfl

@[simp] theorem emit_cfg (v : Byte) : (emit v s).cfg = s.cfg := rfl
@[simp] theorem emit_wdest0 (v : Byte) : (emit v s).wdest0 = s.wdest0 := rfl
@[simp] theorem emit_wdest1 (v : Byte) : (emit v s).wdest1 = s.wdest1 := rfl
@[simp] theorem emit_rdest0 (v : Byte) : (emit v s).rdest0 = s.rdest0 := rfl
@[simp] theorem emit_rdest1 (v : Byte) : (emit v s).rdest1 = s.rdest1 := rfl
@[simp] theorem emit_constructing (v : Byte) : (emit v s).constructing = s.constructing := rfl
@[simp] theorem emit_reg0 (v : Byte) : (emit v s).reg0 = s.reg0 := rfl
@[simp] theorem emit_reg1 (v : Byte) : (emit v s).reg1 = s.reg1 := rfl
@[simp] theorem emit_ready (v : Byte) : (emit v s).ready = s.ready := rfl
@[simp] theorem emit_flag (v : Byte) : (emit v s).flag = s.flag := rfl
@[simp] theorem emit_img (v : Byte) : (emit v s).img = s.img := rfl
@[simp] theorem emit_diskPos (v : Byte) : (emit v s).diskPos = s.diskPos := rfl
@[simp] theorem emit_mode (v : Byte) : (emit v s).mode = s.mode := rfl
@[simp] theorem emit_dead (v : Byte) : (emit v s).dead = s.dead := rfl
@[simp] theorem emit_path (v : Byte) : (emit v s).path = s.path := rfl
@[simp] theorem emit_power (v : Byte) : (emit v s).power = s.power := rfl
@[simp] theorem emit_intervalK (v : Byte) : (emit v s).intervalK = s.intervalK := rfl
@[simp] theorem emit_output (v : Byte) : (emit v s).output = s.output ++ [v] := rfl
@[simp] theorem emit_faultRecord (v : Byte) : (emit v s).faultRecord = s.faultRecord := rfl
@[simp] theorem emit_pending (v : Byte) : (emit v s).pending = s.pending := rfl
@[simp] theorem emit_draw (v : Byte) : (emit v s).draw = s.draw := rfl
@[simp] theorem emit_fileRequests (v : Byte) : (emit v s).fileRequests = s.fileRequests := rfl
@[simp] theorem emit_reply (v : Byte) : (emit v s).reply = s.reply := rfl

@[simp] theorem setReg_zero_cfg (v : Byte) : (setReg 0 v s).cfg = s.cfg := rfl
@[simp] theorem setReg_zero_wdest0 (v : Byte) : (setReg 0 v s).wdest0 = s.wdest0 := rfl
@[simp] theorem setReg_zero_wdest1 (v : Byte) : (setReg 0 v s).wdest1 = s.wdest1 := rfl
@[simp] theorem setReg_zero_rdest0 (v : Byte) : (setReg 0 v s).rdest0 = s.rdest0 := rfl
@[simp] theorem setReg_zero_rdest1 (v : Byte) : (setReg 0 v s).rdest1 = s.rdest1 := rfl
@[simp] theorem setReg_zero_constructing (v : Byte) : (setReg 0 v s).constructing = s.constructing := rfl
@[simp] theorem setReg_zero_reg0 (v : Byte) : (setReg 0 v s).reg0 = .holds v := rfl
@[simp] theorem setReg_zero_reg1 (v : Byte) : (setReg 0 v s).reg1 = s.reg1 := rfl
@[simp] theorem setReg_zero_ready (v : Byte) : (setReg 0 v s).ready = s.ready := rfl
@[simp] theorem setReg_zero_flag (v : Byte) : (setReg 0 v s).flag = s.flag := rfl
@[simp] theorem setReg_zero_img (v : Byte) : (setReg 0 v s).img = s.img := rfl
@[simp] theorem setReg_zero_diskPos (v : Byte) : (setReg 0 v s).diskPos = s.diskPos := rfl
@[simp] theorem setReg_zero_mode (v : Byte) : (setReg 0 v s).mode = s.mode := rfl
@[simp] theorem setReg_zero_dead (v : Byte) : (setReg 0 v s).dead = s.dead := rfl
@[simp] theorem setReg_zero_path (v : Byte) : (setReg 0 v s).path = s.path := rfl
@[simp] theorem setReg_zero_power (v : Byte) : (setReg 0 v s).power = s.power := rfl
@[simp] theorem setReg_zero_intervalK (v : Byte) : (setReg 0 v s).intervalK = s.intervalK := rfl
@[simp] theorem setReg_zero_output (v : Byte) : (setReg 0 v s).output = s.output := rfl
@[simp] theorem setReg_zero_faultRecord (v : Byte) : (setReg 0 v s).faultRecord = s.faultRecord := rfl
@[simp] theorem setReg_zero_pending (v : Byte) : (setReg 0 v s).pending = s.pending := rfl
@[simp] theorem setReg_zero_draw (v : Byte) : (setReg 0 v s).draw = s.draw := rfl
@[simp] theorem setReg_zero_fileRequests (v : Byte) : (setReg 0 v s).fileRequests = s.fileRequests := rfl
@[simp] theorem setReg_zero_reply (v : Byte) : (setReg 0 v s).reply = s.reply := rfl

@[simp] theorem setReg_one_cfg (v : Byte) : (setReg 1 v s).cfg = s.cfg := rfl
@[simp] theorem setReg_one_wdest0 (v : Byte) : (setReg 1 v s).wdest0 = s.wdest0 := rfl
@[simp] theorem setReg_one_wdest1 (v : Byte) : (setReg 1 v s).wdest1 = s.wdest1 := rfl
@[simp] theorem setReg_one_rdest0 (v : Byte) : (setReg 1 v s).rdest0 = s.rdest0 := rfl
@[simp] theorem setReg_one_rdest1 (v : Byte) : (setReg 1 v s).rdest1 = s.rdest1 := rfl
@[simp] theorem setReg_one_constructing (v : Byte) : (setReg 1 v s).constructing = s.constructing := rfl
@[simp] theorem setReg_one_reg0 (v : Byte) : (setReg 1 v s).reg0 = s.reg0 := rfl
@[simp] theorem setReg_one_reg1 (v : Byte) : (setReg 1 v s).reg1 = .holds v := rfl
@[simp] theorem setReg_one_ready (v : Byte) : (setReg 1 v s).ready = s.ready := rfl
@[simp] theorem setReg_one_flag (v : Byte) : (setReg 1 v s).flag = s.flag := rfl
@[simp] theorem setReg_one_img (v : Byte) : (setReg 1 v s).img = s.img := rfl
@[simp] theorem setReg_one_diskPos (v : Byte) : (setReg 1 v s).diskPos = s.diskPos := rfl
@[simp] theorem setReg_one_mode (v : Byte) : (setReg 1 v s).mode = s.mode := rfl
@[simp] theorem setReg_one_dead (v : Byte) : (setReg 1 v s).dead = s.dead := rfl
@[simp] theorem setReg_one_path (v : Byte) : (setReg 1 v s).path = s.path := rfl
@[simp] theorem setReg_one_power (v : Byte) : (setReg 1 v s).power = s.power := rfl
@[simp] theorem setReg_one_intervalK (v : Byte) : (setReg 1 v s).intervalK = s.intervalK := rfl
@[simp] theorem setReg_one_output (v : Byte) : (setReg 1 v s).output = s.output := rfl
@[simp] theorem setReg_one_faultRecord (v : Byte) : (setReg 1 v s).faultRecord = s.faultRecord := rfl
@[simp] theorem setReg_one_pending (v : Byte) : (setReg 1 v s).pending = s.pending := rfl
@[simp] theorem setReg_one_draw (v : Byte) : (setReg 1 v s).draw = s.draw := rfl
@[simp] theorem setReg_one_fileRequests (v : Byte) : (setReg 1 v s).fileRequests = s.fileRequests := rfl
@[simp] theorem setReg_one_reply (v : Byte) : (setReg 1 v s).reply = s.reply := rfl

@[simp] theorem devRaiseReady_cfg : (devRaiseReady s).cfg = s.cfg := by unfold devRaiseReady; split <;> rfl
@[simp] theorem devRaiseReady_wdest0 : (devRaiseReady s).wdest0 = s.wdest0 := by unfold devRaiseReady; split <;> rfl
@[simp] theorem devRaiseReady_wdest1 : (devRaiseReady s).wdest1 = s.wdest1 := by unfold devRaiseReady; split <;> rfl
@[simp] theorem devRaiseReady_rdest0 : (devRaiseReady s).rdest0 = s.rdest0 := by unfold devRaiseReady; split <;> rfl
@[simp] theorem devRaiseReady_rdest1 : (devRaiseReady s).rdest1 = s.rdest1 := by unfold devRaiseReady; split <;> rfl
@[simp] theorem devRaiseReady_constructing : (devRaiseReady s).constructing = s.constructing := by unfold devRaiseReady; split <;> rfl
@[simp] theorem devRaiseReady_reg0 : (devRaiseReady s).reg0 = s.reg0 := by unfold devRaiseReady; split <;> rfl
@[simp] theorem devRaiseReady_reg1 : (devRaiseReady s).reg1 = s.reg1 := by unfold devRaiseReady; split <;> rfl
@[simp] theorem devRaiseReady_ready : (devRaiseReady s).ready = (s.ready || !s.dead) := by
  unfold devRaiseReady; cases h : s.dead <;> simp
@[simp] theorem devRaiseReady_flag : (devRaiseReady s).flag = s.flag := by unfold devRaiseReady; split <;> rfl
@[simp] theorem devRaiseReady_img : (devRaiseReady s).img = s.img := by unfold devRaiseReady; split <;> rfl
@[simp] theorem devRaiseReady_diskPos : (devRaiseReady s).diskPos = s.diskPos := by unfold devRaiseReady; split <;> rfl
@[simp] theorem devRaiseReady_mode : (devRaiseReady s).mode = s.mode := by unfold devRaiseReady; split <;> rfl
@[simp] theorem devRaiseReady_dead : (devRaiseReady s).dead = s.dead := by unfold devRaiseReady; split <;> rfl
@[simp] theorem devRaiseReady_path : (devRaiseReady s).path = s.path := by unfold devRaiseReady; split <;> rfl
@[simp] theorem devRaiseReady_power : (devRaiseReady s).power = s.power := by unfold devRaiseReady; split <;> rfl
@[simp] theorem devRaiseReady_intervalK : (devRaiseReady s).intervalK = s.intervalK := by unfold devRaiseReady; split <;> rfl
@[simp] theorem devRaiseReady_output : (devRaiseReady s).output = s.output := by unfold devRaiseReady; split <;> rfl
@[simp] theorem devRaiseReady_faultRecord : (devRaiseReady s).faultRecord = s.faultRecord := by unfold devRaiseReady; split <;> rfl
@[simp] theorem devRaiseReady_pending : (devRaiseReady s).pending = s.pending := by unfold devRaiseReady; split <;> rfl
@[simp] theorem devRaiseReady_draw : (devRaiseReady s).draw = s.draw := by unfold devRaiseReady; split <;> rfl
@[simp] theorem devRaiseReady_fileRequests : (devRaiseReady s).fileRequests = s.fileRequests := by unfold devRaiseReady; split <;> rfl
@[simp] theorem devRaiseReady_reply : (devRaiseReady s).reply = s.reply := by unfold devRaiseReady; split <;> rfl

end Sys2Proof.Machine
end

