-- ==== Sys2Proof/Laws/Handlers.lean ====
section
/-! SUPPORT. The shared operations of Handlers, each said once: what it can do when it answers a next state, and what no
handler ever touches. Claims about a meaning cite these instead of unfolding a handler. -/

namespace Sys2Proof.Machine

/-- `devRaiseReady` after `unsetReady`: ready says whether the device is alive. -/
theorem devRaiseReady_eq (s : State) : devRaiseReady s = { s with ready := s.ready || !s.dead } := by
  unfold devRaiseReady; cases s; rename_i d _ _ _ _ _ _ _ _ _; cases d <;> simp [setReady]

theorem devRaiseReady_unsetReady (s : State) :
    devRaiseReady (unsetReady s) = { s with ready := !s.dead } := by
  rw [devRaiseReady_eq]; simp [unsetReady]

/-- The echo's value looks at the cursor and the image only. -/
theorem echo_ok_congr {m : Mode} {s t : State} {e : Byte} (hp : t.diskPos = s.diskPos) (hi : t.img = s.img) :
    echo m t = .ok e ↔ echo m s = .ok e := by
  cases m <;> simp only [echo, readImg, hp, hi] <;> split <;> simp

/-- What a selection of mode `m` does (R102): a re-selection only raises ready; else the mode and its echo, which may
fault with the mode already set and ready low. -/
theorem diskSelect_eq (m : Mode) (s : State) : diskSelect m s =
    if m = s.mode then .next { s with ready := !s.dead }
    else withValue (echo m { s with ready := false, mode := m }) fun e =>
      .next { s with mode := m, reg0 := .holds e, ready := !s.dead } := by
  unfold diskSelect
  simp only [unsetReady_mode, devRaiseReady_unsetReady]
  split
  · rfl
  · cases he : echo m { unsetReady s with mode := m } with
    | error f => rw [show ({ s with ready := false, mode := m } : State) = { unsetReady s with mode := m } from rfl, he]
                 rfl
    | ok e => rw [show ({ s with ready := false, mode := m } : State) = { unsetReady s with mode := m } from rfl, he]
              simp [devRaiseReady_eq, setReg]

theorem diskSelect_next {m : Mode} {s t : State} (h : diskSelect m s = .next t) :
    (m = s.mode ∧ t = { s with ready := !s.dead }) ∨
    (m ≠ s.mode ∧ ∃ e, echo m s = .ok e ∧
      t = { s with mode := m, reg0 := .holds e, ready := !s.dead }) := by
  rw [diskSelect_eq] at h
  split at h
  · next hm => injection h with h; exact .inl ⟨hm, h.symm⟩
  · next hm =>
    obtain ⟨e, he, h⟩ := withValue_eq_next.mp h
    injection h with h
    have he : echo m s = .ok e := (echo_ok_congr (s := s) (t := { s with ready := false, mode := m }) rfl rfl).mp he
    exact .inr ⟨hm, e, he, h.symm⟩

/-- An invalid selector kills the device (R109). -/
theorem diskSelectInvalid_eq (s : State) : diskSelectInvalid s = .next (die (unsetReady s)) := rfl

/-- What a DATA write does (R110). -/
theorem diskStoreByte_next {v : Byte} {s t : State} (h : diskStoreByte v s = .next t) :
    (s.diskPos = posMax ∧ t = die (unsetReady s)) ∨
    (s.diskPos < imageSize ∧
      t = { s with img := memWrite s.img s.diskPos v, diskPos := s.diskPos + 1, ready := !s.dead }) := by
  unfold diskStoreByte at h
  by_cases hp : s.diskPos = posMax
  · simp only [unsetReady_diskPos, hp, if_true, deviceFault] at h
    exact .inl ⟨hp, by injection h with h; exact h.symm⟩
  · simp only [unsetReady_diskPos, hp, if_false] at h
    obtain ⟨u, hu, h⟩ := withValue_eq_next.mp h
    obtain ⟨hlt, rfl⟩ := writeImg_eq_ok.mp hu
    refine .inr ⟨hlt, ?_⟩
    injection h with h
    rw [← h, devRaiseReady_eq]
    simp [unsetReady]

/-- What a SEEK write does (R111). -/
theorem diskSeek_eq (v : Byte) (s : State) : diskSeek v s =
    if seekTarget s.diskPos v < 0 ∨ 65535 < seekTarget s.diskPos v then .next (die (unsetReady s))
    else .next { s with diskPos := (seekTarget s.diskPos v).toNat, ready := !s.dead } := by
  unfold diskSeek
  simp only [unsetReady_diskPos, deviceFault, devRaiseReady_eq]
  simp [unsetReady]

/-- What a BYTE_N write does (R112). -/
theorem diskSetByte_eq (v : Byte) (s : State) :
    diskSetByte v s = .next { s with diskPos := withCursorByte s.diskPos v, ready := !s.dead } := by
  simp [diskSetByte, devRaiseReady_eq, unsetReady]

/-- What a SECTOR_N write does (R113). -/
theorem diskSetSector_eq (v : Byte) (s : State) :
    diskSetSector v s = .next { s with diskPos := withCursorSector s.diskPos v, ready := !s.dead } := by
  simp [diskSetSector, devRaiseReady_eq, unsetReady]

/-- What a CTRL write does (R114, R121). -/
theorem diskCommand_eq (v : Byte) (s : State) : diskCommand v s =
    if v = syncCode then
      match s.path with
      | none => .next (die (unsetReady s))
      | some p =>
        if s.draw.fileWriteOk then
          .next { s with fileRequests := s.fileRequests ++ [.write p s.img], ready := !s.dead }
        else .fault (.io2 { s with ready := false })
    else .next { s with ready := !s.dead } := by
  unfold diskCommand sync
  by_cases hv : v = syncCode
  · cases hp : s.path with
    | none => simp [hv, hp, deviceFault, devRaiseReady_eq, die, unsetReady]
    | some p =>
      cases hw : s.draw.fileWriteOk <;> simp [hv, hp, hw, fileWrite, devRaiseReady_eq, unsetReady]
  · simp only [if_neg hv, devRaiseReady_unsetReady]

/-- What a DATA read does (R115). -/
theorem diskPrefetch_eq (s : State) : diskPrefetch s =
    if 65535 ≤ s.diskPos then .fault (.mf3 (s.diskPos + 1) { s with ready := false })
    else .next { s with diskPos := s.diskPos + 1, reg0 := .holds (memRead s.img (s.diskPos + 1)),
                        ready := !s.dead } := by
  unfold diskPrefetch
  by_cases h : 65535 ≤ s.diskPos
  · simp [h, unsetReady]
  · have hlt : s.diskPos + 1 < imageSize := by unfold imageSize; omega
    have hr : readImg (s.diskPos + 1) { unsetReady s with diskPos := s.diskPos + 1 }
        = .ok (memRead s.img (s.diskPos + 1)) := by rw [readImg, if_pos hlt, unsetReady_img]
    simp only [unsetReady_diskPos, h, if_false, hr, withValue_ok, devRaiseReady_eq]
    simp [setReg]

/-- No write handler touches the configuration, the bindings, the flag, the path, the OUTPUT fields, the fault record or
the model's own fields but the file requests. -/
theorem runWrite_untouched {d : Option WriteDest} {v : Byte} {s t : State} (h : runWrite d v s = .next t) :
    t.cfg = s.cfg ∧ t.wdest0 = s.wdest0 ∧ t.wdest1 = s.wdest1 ∧ t.rdest0 = s.rdest0 ∧ t.rdest1 = s.rdest1 ∧
    t.constructing = s.constructing ∧ t.flag = s.flag ∧ t.path = s.path ∧ t.power = s.power ∧
    t.intervalK = s.intervalK ∧ t.output = s.output ∧ t.faultRecord = s.faultRecord ∧ t.pending = s.pending ∧
    t.draw = s.draw ∧ t.reply = s.reply := by
  cases d with
  | none => injection h with h; subst h; simp
  | some d =>
    cases d with
    | diskDataWrite =>
      simp only [runWrite, diskDataWrite] at h
      cases hm : s.mode <;> simp only [hm] at h
      · rcases diskStoreByte_next h with ⟨-, rfl⟩ | ⟨-, rfl⟩ <;> simp
      · rw [diskSeek_eq] at h
        split at h <;> (injection h with h; subst h; simp)
      · rw [diskSetByte_eq] at h; injection h with h; subst h; simp
      · rw [diskSetSector_eq] at h; injection h with h; subst h; simp
      · rw [diskCommand_eq] at h
        split at h
        · split at h
          · injection h with h; subst h; simp
          · split at h
            · injection h with h; subst h; simp
            · cases h
        · injection h with h; subst h; simp
    | diskModeSelect =>
      simp only [runWrite, diskModeSelect] at h
      cases hr : resolveMode v with
      | none => simp only [hr, diskSelectInvalid_eq] at h; injection h with h; subst h; simp
      | some m =>
        simp only [hr] at h
        rcases diskSelect_next h with ⟨-, rfl⟩ | ⟨-, e, -, rfl⟩ <;> simp

/-- A register read that completes performed the transaction, ran its destination and returned a byte, under either
`READ_SAMPLE` (R90). -/
theorem readThrough_next {i : Nat} {dest : State → Out} {s t : State} (h : readThrough i dest s = .next t) :
    ∃ r u, dest (performed s) = .next u ∧ t = returning (.byte r) u := by
  unfold readThrough at h
  simp only [performed_cfg] at h
  split at h
  · obtain ⟨r, -, h⟩ := withValue_eq_next.mp h
    obtain ⟨u, hu, h⟩ := andThen_eq_next.mp h
    injection h with h
    exact ⟨r, u, hu, h.symm⟩
  · obtain ⟨u, hu, h⟩ := andThen_eq_next.mp h
    obtain ⟨r, -, h⟩ := withValue_eq_next.mp h
    injection h with h
    exact ⟨r, u, hu, h.symm⟩

/-- What `loadImage` leaves after its file was read (R122, R124). -/
theorem loadBytes_eq (p : Path) (bytes : List Byte) (s : State) : loadBytes p bytes s =
    { s with img := normalizeFile bytes, diskPos := 0, reg0 := .holds (memRead (normalizeFile bytes) 0), path := some p,
             dead := s.dead && !s.cfg.loadClearsDead, ready := !(s.dead && !s.cfg.loadClearsDead) } := by
  unfold loadBytes
  simp only [devRaiseReady_eq]
  cases hc : s.cfg.loadClearsDead <;> simp [hc, setReg, unsetReady]

/-- The DISK rows apply exactly on a DISK block with the binding table of R100. -/
theorem diskMode_eq_some {s : State} {m : Mode} : diskMode s = some m ↔
    s.cfg.personality = .disk ∧ s.wdest0 = some .diskDataWrite ∧ s.wdest1 = some .diskModeSelect ∧
    s.rdest0 = some .diskDataRead ∧ s.rdest1 = none ∧ s.mode = m := by
  unfold diskMode
  split
  · next h => obtain ⟨h1, h2, h3, h4, h5⟩ := h; simp [h1, h2, h3, h4, h5]
  · next h =>
    constructor
    · intro h'; cases h'
    · rintro ⟨h1, h2, h3, h4, h5, -⟩; exact absurd ⟨h1, h2, h3, h4, h5⟩ h

end Sys2Proof.Machine
end

