-- ==== Sys2Proof/Laws/Effects.lean ====
section
/-! SUPPORT. Said once: what a register write, a register read and any operation can do when it answers a next state. Every
invariant and every frame follows from `exec_effect` by cases, without unfolding a meaning. -/

namespace Sys2Proof.Machine

/-- What the write destinations can leave of the state `s` in which they run (R102, R110 to R114, R140). -/
inductive WriteEffect (v : Byte) (s : State) : State → Prop where
  /-- No destination, or a path on which nothing but ready is touched. -/
  | none : WriteEffect v s s
  | raised : WriteEffect v s { s with ready := !s.dead }
  /-- A newly selected mode with its echo (R102). -/
  | selected (m : Mode) (e : Byte) (hv : resolveMode v = some m) (hm : m ≠ s.mode) (he : echo m s = .ok e) :
      WriteEffect v s { s with mode := m, reg0 := .holds e, ready := !s.dead }
  /-- A byte stored at the cursor (R110). -/
  | byte (hp : s.diskPos < imageSize) :
      WriteEffect v s { s with img := memWrite s.img s.diskPos v, diskPos := s.diskPos + 1, ready := !s.dead }
  /-- The cursor moved inside the image (R111 to R113). -/
  | moved (n : Nat) (hn : n ≤ 65535) : WriteEffect v s { s with diskPos := n, ready := !s.dead }
  /-- The image sent to the backing file (R121). -/
  | synced (p : Path) (hv : v = syncCode) (hp : s.path = some p) :
      WriteEffect v s { s with fileRequests := s.fileRequests ++ [.write p s.img], ready := !s.dead }
  /-- The device has died (R120). -/
  | died : WriteEffect v s (die (unsetReady s))

theorem withCursorByte_le (pos : Nat) (v : Byte) : withCursorByte pos v ≤ 65535 := by
  have h1 : pos &&& 0xFF00 < 2 ^ 16 := lt_of_le_of_lt Nat.and_le_right (by decide)
  have h2 : v.toNat < 2 ^ 16 := lt_trans v.isLt (by decide)
  exact Nat.le_of_lt_succ (Nat.or_lt_two_pow h1 h2)

theorem withCursorSector_le (pos : Nat) (v : Byte) : withCursorSector pos v ≤ 65535 := by
  have h1 : pos &&& 0x00FF < 2 ^ 16 := lt_of_le_of_lt Nat.and_le_right (by decide)
  have h2 : v.toNat <<< 8 < 2 ^ 16 := by
    have := v.isLt
    rw [Nat.shiftLeft_eq]; omega
  exact Nat.le_of_lt_succ (Nat.or_lt_two_pow h1 h2)

theorem diskSelect_effect {m : Mode} {v : Byte} {s t : State} (hv : resolveMode v = some m)
    (h : diskSelect m s = .next t) : WriteEffect v s t := by
  rcases diskSelect_next h with ⟨-, rfl⟩ | ⟨hm, e, he, rfl⟩
  · exact .raised
  · exact .selected m e hv hm he

theorem diskModeSelect_effect {v : Byte} {s t : State} (h : diskModeSelect v s = .next t) : WriteEffect v s t := by
  unfold diskModeSelect at h
  split at h
  · rw [diskSelectInvalid_eq] at h; injection h with h; exact h ▸ .died
  · next m hv => exact diskSelect_effect hv h

theorem diskStoreByte_effect {v : Byte} {s t : State} (h : diskStoreByte v s = .next t) : WriteEffect v s t := by
  rcases diskStoreByte_next h with ⟨-, rfl⟩ | ⟨hp, rfl⟩
  · exact .died
  · exact .byte hp

theorem diskSeek_effect {v : Byte} {s t : State} (h : diskSeek v s = .next t) : WriteEffect v s t := by
  rw [diskSeek_eq] at h
  split at h
  · injection h with h; exact h ▸ .died
  · injection h with h; exact h ▸ .moved _ (by omega)

theorem diskSetByte_effect {v : Byte} {s t : State} (h : diskSetByte v s = .next t) : WriteEffect v s t := by
  rw [diskSetByte_eq] at h; injection h with h; exact h ▸ .moved _ (withCursorByte_le _ _)

theorem diskSetSector_effect {v : Byte} {s t : State} (h : diskSetSector v s = .next t) : WriteEffect v s t := by
  rw [diskSetSector_eq] at h; injection h with h; exact h ▸ .moved _ (withCursorSector_le _ _)

theorem diskCommand_effect {v : Byte} {s t : State} (h : diskCommand v s = .next t) : WriteEffect v s t := by
  rw [diskCommand_eq] at h
  split at h
  · next hv =>
    cases hp : s.path with
    | none => rw [hp] at h; injection h with h; exact h ▸ .died
    | some p =>
      simp only [hp] at h
      split at h
      · injection h with h
        have effect := WriteEffect.synced (v := v) p hv hp
        rw [hp, h] at effect
        exact effect
      · cases h
  · injection h with h; exact h ▸ .raised

theorem runWrite_effect {d : Option WriteDest} {v : Byte} {s t : State} (h : runWrite d v s = .next t) :
    WriteEffect v s t := by
  cases d with
  | none => injection h with h; exact h ▸ .none
  | some d =>
    cases d with
    | diskModeSelect => exact diskModeSelect_effect h
    | diskDataWrite =>
      simp only [runWrite, diskDataWrite] at h
      cases hm : s.mode <;> simp only [hm] at h
      · exact diskStoreByte_effect h
      · exact diskSeek_effect h
      · exact diskSetByte_effect h
      · exact diskSetSector_effect h
      · exact diskCommand_effect h

/-- The register write an operation is (R89, R76): its index and payload. -/
def writeOperands : Instr → Option (Nat × Byte)
  | .wr idx val => some (idx.toNat, val)
  | .selData => some (1, 0x00)
  | .selSeek => some (1, 0x0A)
  | .selByteN => some (1, 0x0B)
  | .selSectorN => some (1, 0x0C)
  | .selCtrl => some (1, 0x0F)
  | .selInvalid code => some (1, code)
  | .wr0Data val => some (0, val)
  | .wr0Seek val => some (0, val)
  | .wr0ByteN val => some (0, val)
  | .wr0SectorN val => some (0, val)
  | .wr0Ctrl val => some (0, val)
  | _ => none

/-- What a read destination can leave (R115, R140): the state as it is, or one byte further. -/
theorem runRead_next {d : Option ReadDest} {s t : State} (h : runRead d s = .next t) :
    t = s ∨ (s.diskPos < 65535 ∧ t = { s with diskPos := s.diskPos + 1,
                                               reg0 := .holds (memRead s.img (s.diskPos + 1)), ready := !s.dead }) := by
  cases d with
  | none => injection h with h; exact .inl h.symm
  | some d =>
    cases d
    simp only [runRead, diskDataRead] at h
    split at h
    · rw [diskPrefetch_eq] at h
      split at h
      · cases h
      · next hp => injection h with h; exact .inr ⟨by omega, h.symm⟩
    all_goals cases h

/-- The forms of `RD` (R90, R115 to R117). -/
def isRead : Instr → Bool
  | .rd _ | .rd0Data | .rd0NotData | .rd1 => true
  | _ => false

/-- What an operation can leave of the state it is performed in, when it answers a next state. -/
inductive ExecEffect (i : Instr) (s : State) : State → Prop where
  /-- A register write: the cell is stored, then the destination has its effect (R89). -/
  | write (j : Nat) (v : Byte) (t : State) (hi : writeOperands i = some (j, v)) (hj : j < numRegs)
      (ht : WriteEffect v (storeReg j v s) t) : ExecEffect i s t
  /-- A register read with no read handler (R90). -/
  | readCell (r : Byte) (hi : isRead i = true) : ExecEffect i s (returning (.byte r) (performed s))
  /-- A register read that prefetches (R115). -/
  | readAhead (r : Byte) (hi : isRead i = true) (hp : s.diskPos < 65535) :
      ExecEffect i s { s with constructing := false, diskPos := s.diskPos + 1,
                              reg0 := .holds (memRead s.img (s.diskPos + 1)), ready := !s.dead,
                              reply := some (.byte r) }
  /-- `RDY` and `RFL` (R91, R92). -/
  | readBit (b : Bool) (hi : i = .rdy ∨ i = .rflag) : ExecEffect i s (returning (.bit b) (performed s))
  /-- `CLF` (R93). -/
  | clearedFlag (hi : i = .clf) : ExecEffect i s (clearFlag (performed s))
  /-- `BINDW` (R80). -/
  | boundWrite0 (j : Nibble) (d : Dest) (e : WriteDest) (hi : i = .bindw j d) (hc : s.constructing = true)
      (hp : s.cfg.personality = .disk) : ExecEffect i s { s with wdest0 := some e }
  | boundWrite1 (j : Nibble) (d : Dest) (e : WriteDest) (hi : i = .bindw j d) (hc : s.constructing = true)
      (hp : s.cfg.personality = .disk) : ExecEffect i s { s with wdest1 := some e }
  /-- `BINDR` (R81). -/
  | boundRead0 (j : Nibble) (d : Dest) (e : ReadDest) (hi : i = .bindr j d) (hc : s.constructing = true)
      (hp : s.cfg.personality = .disk) : ExecEffect i s { s with rdest0 := some e }
  | boundRead1 (j : Nibble) (d : Dest) (e : ReadDest) (hi : i = .bindr j d) (hc : s.constructing = true)
      (hp : s.cfg.personality = .disk) : ExecEffect i s { s with rdest1 := some e }
  /-- The device side (R83 to R88). -/
  | devData (v : Byte) (hi : i = .setData v) : ExecEffect i s (setReg 0 v s)
  | devReturn (r : Reply) (hi : i = .getData ∨ i = .getFlg) : ExecEffect i s (returning r s)
  | devReady (hi : i = .setRdy) : ExecEffect i s (setReady s)
  | devUnready (hi : i = .unsetRdy) : ExecEffect i s (unsetReady s)
  | devFlag (hi : i = .setFlg) : ExecEffect i s (setFlag s)
  /-- `LOAD` (R122). -/
  | loaded (p : Path) (bytes : List Byte) (hi : i = .load p) (hp : s.cfg.personality = .disk) :
      ExecEffect i s { s with
        constructing := false, fileRequests := s.fileRequests ++ [.read p], img := normalizeFile bytes, diskPos := 0,
        reg0 := .holds (memRead (normalizeFile bytes) 0), path := some p,
        dead := s.dead && !s.cfg.loadClearsDead, ready := !(s.dead && !s.cfg.loadClearsDead) }
  /-- `PWR` (R142). -/
  | toggled (hi : i = .pwr) : ExecEffect i s { s with constructing := false, power := !s.power }
  /-- `IVL` (R143). -/
  | interval (k : Byte) (hi : i = .ivl k) : ExecEffect i s { s with constructing := false, intervalK := k.setWidth 2 }
  /-- `TICK` (R141). -/
  | ticked (v : Byte) (hi : i = .tick) (hv : s.reg0 = .holds v) :
      ExecEffect i s { s with constructing := false, output := s.output ++ [v], flag := true }
  | idleTick (hi : i = .tick) : ExecEffect i s s

theorem readThrough_effect {i : Instr} {j : Nat} {d : Option ReadDest} {s t : State} (hi : isRead i = true)
    (h : readThrough j (runRead d) s = .next t) : ExecEffect i s t := by
  obtain ⟨r, u, hu, rfl⟩ := readThrough_next h
  rcases runRead_next hu with rfl | ⟨hp, rfl⟩
  · exact .readCell r hi
  · exact .readAhead r hi hp

/-- Everything an operation can do when it answers a next state. -/
theorem exec_effect {i : Instr} {s t : State} (h : exec i s = .next t) : ExecEffect i s t := by
  cases i <;> simp only [exec] at h
  case wr idx v =>
    unfold execWr at h
    split at h
    · cases h
    · next hj => exact .write _ v t rfl (Nat.lt_of_not_le hj) (runWrite_effect h)
  case rd idx =>
    unfold execRd at h
    split at h
    · cases h
    · exact readThrough_effect rfl h
  case rdy => injection h with h; exact h ▸ .readBit _ (.inl rfl)
  case rflag => injection h with h; exact h ▸ .readBit _ (.inr rfl)
  case clf => injection h with h; exact h ▸ .clearedFlag rfl
  case bindw idx d =>
    unfold execBindw at h
    obtain ⟨hc, h⟩ := requireThat_eq_next.mp h
    obtain ⟨-, h⟩ := requireThat_eq_next.mp h
    obtain ⟨-, h⟩ := requireThat_eq_next.mp h
    obtain ⟨hp, h⟩ := requireThat_eq_next.mp h
    have hp' : s.cfg.personality = .disk := by simpa [ownsDestinations] using hp
    split at h
    · cases h
    · injection h with h
      split at h
      · exact h ▸ .boundWrite0 idx d _ rfl hc hp'
      · exact h ▸ .boundWrite1 idx d _ rfl hc hp'
  case bindr idx d =>
    unfold execBindr at h
    obtain ⟨hc, h⟩ := requireThat_eq_next.mp h
    obtain ⟨-, h⟩ := requireThat_eq_next.mp h
    obtain ⟨-, h⟩ := requireThat_eq_next.mp h
    obtain ⟨hp, h⟩ := requireThat_eq_next.mp h
    have hp' : s.cfg.personality = .disk := by simpa [ownsDestinations] using hp
    split at h
    · cases h
    · injection h with h
      split at h
      · exact h ▸ .boundRead0 idx d _ rfl hc hp'
      · exact h ▸ .boundRead1 idx d _ rfl hc hp'
  case setData v => injection h with h; exact h ▸ .devData v rfl
  case getData =>
    obtain ⟨v, -, h⟩ := withValue_eq_next.mp h
    injection h with h; exact h ▸ .devReturn _ (.inl rfl)
  case setRdy => injection h with h; exact h ▸ .devReady rfl
  case unsetRdy => injection h with h; exact h ▸ .devUnready rfl
  case setFlg => injection h with h; exact h ▸ .devFlag rfl
  case getFlg => injection h with h; exact h ▸ .devReturn _ (.inr rfl)
  case selData => exact .write 1 _ t rfl (by decide) (diskSelect_effect rfl h)
  case selSeek => exact .write 1 _ t rfl (by decide) (diskSelect_effect rfl h)
  case selByteN => exact .write 1 _ t rfl (by decide) (diskSelect_effect rfl h)
  case selSectorN => exact .write 1 _ t rfl (by decide) (diskSelect_effect rfl h)
  case selCtrl => exact .write 1 _ t rfl (by decide) (diskSelect_effect rfl h)
  case selInvalid c => exact .write 1 c t rfl (by decide) (diskModeSelect_effect h)
  case wr0Data v => exact .write 0 v t rfl (by decide) (diskStoreByte_effect h)
  case wr0Seek v => exact .write 0 v t rfl (by decide) (diskSeek_effect h)
  case wr0ByteN v => exact .write 0 v t rfl (by decide) (diskSetByte_effect h)
  case wr0SectorN v => exact .write 0 v t rfl (by decide) (diskSetSector_effect h)
  case wr0Ctrl v => exact .write 0 v t rfl (by decide) (diskCommand_effect h)
  case rd0Data =>
    obtain ⟨r, u, hu, rfl⟩ := readThrough_next h
    rw [diskPrefetch_eq] at hu
    split at hu
    · cases hu
    · next hp => injection hu with hu; subst hu; exact .readAhead r rfl (Nat.lt_of_not_le hp)
  case rd0NotData =>
    obtain ⟨r, u, hu, -⟩ := readThrough_next h
    cases hu
  case rd1 =>
    obtain ⟨r, u, hu, rfl⟩ := readThrough_next h
    injection hu with hu
    exact hu ▸ .readCell r rfl
  case load p =>
    obtain ⟨hp, h⟩ := requireThat_eq_next.mp h
    split at h
    · cases h
    · next bytes _ =>
      injection h with h
      rw [loadBytes_eq] at h
      exact h ▸ .loaded p bytes rfl (by simpa using hp)
  case pwr =>
    obtain ⟨-, h⟩ := requireThat_eq_next.mp h
    injection h with h; exact h ▸ .toggled rfl
  case ivl k =>
    obtain ⟨-, h⟩ := requireThat_eq_next.mp h
    obtain ⟨-, h⟩ := requireThat_eq_next.mp h
    injection h with h; exact h ▸ .interval k rfl
  case tick =>
    obtain ⟨-, h⟩ := requireThat_eq_next.mp h
    split at h
    · obtain ⟨v, hv, h⟩ := withValue_eq_next.mp h
      injection h with h
      exact h ▸ .ticked v rfl (by simpa [readReg_eq_ok, regCell] using hv)
    · injection h with h; exact h ▸ .idleTick rfl

end Sys2Proof.Machine
end

