-- ==== Sys2Proof/Laws/Faults.lean ====
section
/-! SUPPORT. Said once: the state at the fault point (U9) of a register write, a register read and any operation that ends
in a fault. -/

namespace Sys2Proof.Machine

@[simp] theorem faultPoint_recordedFault (r : FaultRecord) (s : State) : faultPoint (recordedFault r s) = s := by
  cases r <;> rfl

@[simp] theorem faultRecordOf_recordedFault (r : FaultRecord) (s : State) : faultRecordOf (recordedFault r s) = r := by
  cases r <;> rfl

@[simp] theorem faultPoint_mapFaultPoint (f : State → State) (e : Fault) :
    faultPoint (mapFaultPoint f e) = f (faultPoint e) := by simp [mapFaultPoint]

@[simp] theorem faultRecordOf_mapFaultPoint (f : State → State) (e : Fault) :
    faultRecordOf (mapFaultPoint f e) = faultRecordOf e := by simp [mapFaultPoint]

@[simp] theorem mapState_next (f : State → State) (s : State) : mapState f (.next s) = .next (f s) := rfl
@[simp] theorem mapState_fault (f : State → State) (e : Fault) : mapState f (.fault e) = .fault (mapFaultPoint f e) := rfl
@[simp] theorem mapState_refused (f : State → State) (r : Refusal) : mapState f (.refused r) = .refused r := rfl

theorem andThen_eq_fault {o : Out} {k : State → Out} {f : Fault} :
    andThen o k = .fault f ↔ o = .fault f ∨ ∃ u, o = .next u ∧ k u = .fault f := by
  cases o <;> simp

theorem withValue_eq_fault {α : Type} {v : Except Fault α} {k : α → Out} {f : Fault} :
    withValue v k = .fault f ↔ v = .error f ∨ ∃ a, v = .ok a ∧ k a = .fault f := by
  cases v <;> simp

theorem requireThat_eq_fault {c : Bool} {r : Refusal} {k : Out} {f : Fault} :
    requireThat c r k = .fault f ↔ c = true ∧ k = .fault f := by
  cases c <;> simp

/-- A cell and an image byte fault in the state they are read in. -/
theorem readReg_error {i : Nat} {s : State} {f : Fault} (h : readReg i s = .error f) : f = .mf1 i s := by
  unfold readReg at h
  split at h <;> cases h
  rfl

theorem readImg_error {p : Nat} {s : State} {f : Fault} (h : readImg p s = .error f) : f = .mf3 p s := by
  unfold readImg at h
  split at h <;> cases h
  rfl

theorem writeImg_error {p : Nat} {v : Byte} {s : State} {f : Fault} (h : writeImg p v s = .error f) : f = .mf3 p s := by
  unfold writeImg at h
  split at h <;> cases h
  rfl

theorem echo_error {m : Mode} {s : State} {f : Fault} (h : echo m s = .error f) : faultPoint f = s := by
  cases m <;> simp only [echo] at h
  case data => rw [readImg_error h]; rfl
  case sectorN => split at h <;> cases h; rfl
  all_goals cases h

/-- A selection faults with ready low and the new mode set (R102). -/
theorem diskSelect_fault {m : Mode} {s : State} {f : Fault} (h : diskSelect m s = .fault f) :
    faultPoint f = { s with ready := false, mode := m } := by
  rw [diskSelect_eq] at h
  split at h
  · cases h
  · rcases withValue_eq_fault.mp h with he | ⟨e, -, h⟩
    · exact echo_error (s := { s with ready := false, mode := m }) he
    · cases h

theorem diskModeSelect_fault {v : Byte} {s : State} {f : Fault} (h : diskModeSelect v s = .fault f) :
    ∃ m, faultPoint f = { s with ready := false, mode := m } := by
  unfold diskModeSelect at h
  split at h
  · cases h
  · exact ⟨_, diskSelect_fault h⟩

theorem diskStoreByte_fault {v : Byte} {s : State} {f : Fault} (h : diskStoreByte v s = .fault f) :
    faultPoint f = { s with ready := false } := by
  unfold diskStoreByte at h
  dsimp only at h
  split at h
  · cases h
  · rcases withValue_eq_fault.mp h with he | ⟨t, -, h⟩
    · rw [writeImg_error he]; rfl
    · cases h

theorem diskCommand_fault {v : Byte} {s : State} {f : Fault} (h : diskCommand v s = .fault f) :
    f = .io2 { s with ready := false } := by
  rw [diskCommand_eq] at h
  split at h
  · cases hp : s.path with
    | none => rw [hp] at h; cases h
    | some p =>
      simp only [hp] at h
      split at h
      · cases h
      · injection h with h; exact h.symm
  · cases h

/-- A write destination faults with ready low, a newly selected mode set, and nothing else done. -/
theorem runWrite_fault {d : Option WriteDest} {v : Byte} {s : State} {f : Fault} (h : runWrite d v s = .fault f) :
    ∃ m, faultPoint f = { s with ready := false, mode := m } := by
  cases d with
  | none => cases h
  | some d =>
    cases d with
    | diskModeSelect => exact diskModeSelect_fault h
    | diskDataWrite =>
      simp only [runWrite, diskDataWrite] at h
      cases hm : s.mode <;> simp only [hm] at h
      · exact ⟨s.mode, diskStoreByte_fault h⟩
      · rw [diskSeek_eq] at h; split at h <;> cases h
      · rw [diskSetByte_eq] at h; cases h
      · rw [diskSetSector_eq] at h; cases h
      · exact ⟨s.mode, by rw [diskCommand_fault h]; rfl⟩

/-- The state at the fault point of an operation performed in `s`. -/
inductive FaultEffect (s : State) : State → Prop where
  /-- A fault before any change: MF2, IO1, and MF1 outside the CPU port. -/
  | untouched : FaultEffect s s
  /-- A register read that faults at its sample, and MF4. -/
  | begun : FaultEffect s (performed s)
  /-- A DATA read with no byte to prefetch. -/
  | lowered : FaultEffect s { performed s with ready := false }
  /-- A cell that is still unwritten after a prefetch into the other one, under `AFTER_HANDLER`. -/
  | readAhead (hp : s.diskPos < 65535) :
      FaultEffect s { s with constructing := false, diskPos := s.diskPos + 1,
                             reg0 := .holds (memRead s.img (s.diskPos + 1)), ready := !s.dead }
  /-- A register write whose destination faults: the cell is stored, ready is low, a newly selected mode is set. -/
  | writing (j : Nat) (v : Byte) (m : Mode) (hj : j < numRegs) :
      FaultEffect s { storeReg j v s with ready := false, mode := m }

theorem runWrite_fault_effect {d : Option WriteDest} {j : Nat} {v : Byte} {s : State} {f : Fault} (hj : j < numRegs)
    (h : runWrite d v (storeReg j v s) = .fault f) : FaultEffect s (faultPoint f) := by
  obtain ⟨m, hm⟩ := runWrite_fault h
  exact hm ▸ .writing j v m hj

/-- A DATA read faults with ready low, and goes on with the next byte prefetched. -/
theorem diskPrefetch_fault_effect {s : State} :
    (∀ f, diskPrefetch (performed s) = .fault f → FaultEffect s (faultPoint f)) ∧
    (∀ u, diskPrefetch (performed s) = .next u → FaultEffect s u) := by
  constructor <;> intro x h <;> rw [diskPrefetch_eq] at h <;> split at h
  · injection h with h; exact h ▸ .lowered
  · cases h
  · cases h
  · next hp => injection h with h; exact h ▸ .readAhead (Nat.lt_of_not_le hp)

theorem runRead_fault_effect {d : Option ReadDest} {s : State} :
    (∀ f, runRead d (performed s) = .fault f → FaultEffect s (faultPoint f)) ∧
    (∀ u, runRead d (performed s) = .next u → FaultEffect s u) := by
  cases d with
  | none => exact ⟨fun f h => (by cases h), fun u h => by injection h with h; exact h ▸ .begun⟩
  | some d =>
    cases d
    simp only [runRead, diskDataRead]
    split
    · exact diskPrefetch_fault_effect
    all_goals exact ⟨fun f h => (by injection h with h; exact h ▸ .begun), fun u h => (by cases h)⟩

/-- A register read faults at its sample, or where its read destination faults (R90). -/
theorem readThrough_fault {j : Nat} {dest : State → Out} {s : State} {f : Fault}
    (hd : (∀ f, dest (performed s) = .fault f → FaultEffect s (faultPoint f)) ∧
      (∀ u, dest (performed s) = .next u → FaultEffect s u))
    (h : readThrough j dest s = .fault f) : FaultEffect s (faultPoint f) := by
  unfold readThrough at h
  simp only [performed_cfg] at h
  split at h
  · rcases withValue_eq_fault.mp h with h | ⟨r, -, h⟩
    · rw [readReg_error h]; exact .begun
    · rcases andThen_eq_fault.mp h with h | ⟨u, -, h⟩
      · exact hd.1 f h
      · cases h
  · rcases andThen_eq_fault.mp h with h | ⟨u, hu, h⟩
    · exact hd.1 f h
    · rcases withValue_eq_fault.mp h with h | ⟨r, -, h⟩
      · rw [readReg_error h]; exact hd.2 u hu
      · cases h

/-- Everything an operation can have done at its fault point. -/
theorem exec_fault {i : Instr} {s : State} {f : Fault} (h : exec i s = .fault f) : FaultEffect s (faultPoint f) := by
  cases i <;> simp only [exec] at h
  case wr idx v =>
    unfold execWr at h
    split at h
    · injection h with h; exact h ▸ .untouched
    · next hj => exact runWrite_fault_effect (Nat.lt_of_not_le hj) h
  case rd idx =>
    unfold execRd at h
    split at h
    · injection h with h; exact h ▸ .untouched
    · exact readThrough_fault runRead_fault_effect h
  case bindw idx d =>
    simp only [execBindw, requireThat_eq_fault] at h
    obtain ⟨-, -, -, -, h⟩ := h
    split at h <;> cases h
  case bindr idx d =>
    simp only [execBindr, requireThat_eq_fault] at h
    obtain ⟨-, -, -, -, h⟩ := h
    split at h <;> cases h
  case getData =>
    rcases withValue_eq_fault.mp h with h | ⟨v, -, h⟩
    · rw [readReg_error h]; exact .untouched
    · cases h
  case selData => rw [diskSelect_fault h]; exact .writing 1 0x00 _ (by decide)
  case selSeek => rw [diskSelect_fault h]; exact .writing 1 0x0A _ (by decide)
  case selByteN => rw [diskSelect_fault h]; exact .writing 1 0x0B _ (by decide)
  case selSectorN => rw [diskSelect_fault h]; exact .writing 1 0x0C _ (by decide)
  case selCtrl => rw [diskSelect_fault h]; exact .writing 1 0x0F _ (by decide)
  case selInvalid c => exact runWrite_fault_effect (d := some .diskModeSelect) (by decide) h
  case wr0Data v =>
    rw [diskStoreByte_fault h]
    exact .writing 0 v (storeReg 0 v s).mode (by decide)
  case wr0Seek v =>
    rw [execWr0Seek, diskSeek_eq] at h
    split at h <;> cases h
  case wr0ByteN v => rw [execWr0ByteN, diskSetByte_eq] at h; cases h
  case wr0SectorN v => rw [execWr0SectorN, diskSetSector_eq] at h; cases h
  case wr0Ctrl v =>
    rw [diskCommand_fault h]
    exact .writing 0 v (storeReg 0 v s).mode (by decide)
  case rd0Data => exact readThrough_fault diskPrefetch_fault_effect h
  case rd0NotData =>
    exact readThrough_fault ⟨fun f h => (by injection h with h; exact h ▸ .begun), fun u h => (by cases h)⟩ h
  case rd1 => exact readThrough_fault (runRead_fault_effect (d := none)) h
  case load p =>
    obtain ⟨-, h⟩ := requireThat_eq_fault.mp h
    split at h
    · injection h with h; exact h ▸ .untouched
    · cases h
  case pwr => obtain ⟨-, h⟩ := requireThat_eq_fault.mp h; cases h
  case ivl k =>
    obtain ⟨-, h⟩ := requireThat_eq_fault.mp h
    obtain ⟨-, h⟩ := requireThat_eq_fault.mp h
    cases h
  case tick =>
    obtain ⟨-, h⟩ := requireThat_eq_fault.mp h
    split at h
    · rcases withValue_eq_fault.mp h with h | ⟨v, -, h⟩
      · rw [readReg_error h]; exact .untouched
      · cases h
    · cases h
  all_goals cases h

end Sys2Proof.Machine
end

