-- ==== Sys2Proof/Laws/PerInstr.lean ====
section
/-! SUPPORT. One lemma per operation: the word the encoder gives a well-formed operation is none of the words that R74
reserves. -/

namespace Sys2Proof.Laws

/-- The word of a word's three fields is reserved by R74 exactly as the fields say. -/
theorem reservedWord_mkWord (op idx : Nibble) (val : Byte) :
    Machine.reservedWord (mkWord op idx val) =
      (op.toNat == 0x0 || op.toNat == 0xE
        || (op.toNat == 0x2 && val.toNat != 0)
        || ((op.toNat == 0x6 || op.toNat == 0x7) && (val.toNat == 0 || decide (4 ≤ val.toNat)))
        || (op.toNat == 0x8 && idx.toNat != 0)
        || ((op.toNat == 0x3 || op.toNat == 0x4 || op.toNat == 0x5 || op.toNat == 0x9 || op.toNat == 0xA
              || op.toNat == 0xB || op.toNat == 0xC || op.toNat == 0xD) && (idx.toNat != 0 || val.toNat != 0))
        || (op.toNat == 0xF && (decide (4 ≤ idx.toNat) || (idx.toNat == 2 && decide (4 ≤ val.toNat))
              || (idx.toNat != 2 && val.toNat != 0)))) := by
  simp only [Machine.reservedWord, opField_mkWord, idxField_mkWord, valField_mkWord]

/-- R74: the operation's word is not reserved. -/
def NotReserved.Statement (i : Instr) : Prop :=
  i.wellFormed = true → Machine.reservedWord (encode i) = false

theorem NotReserved.wr (idx : Nibble) (val : Byte) : NotReserved.Statement (.wr idx val) := by
  intro _
  simp [encode, reservedWord_mkWord]

theorem NotReserved.rd (idx : Nibble) : NotReserved.Statement (.rd idx) := by
  intro _
  simp [encode, reservedWord_mkWord]

theorem NotReserved.rdy : NotReserved.Statement .rdy := fun _ => by decide

theorem NotReserved.rflag : NotReserved.Statement .rflag := fun _ => by decide

theorem NotReserved.clf : NotReserved.Statement .clf := fun _ => by decide

theorem NotReserved.bindw (idx : Nibble) (d : Dest) : NotReserved.Statement (.bindw idx d) := by
  intro _
  cases d <;> simp [encode, reservedWord_mkWord, destId]

theorem NotReserved.bindr (idx : Nibble) (d : Dest) : NotReserved.Statement (.bindr idx d) := by
  intro _
  cases d <;> simp [encode, reservedWord_mkWord, destId]

theorem NotReserved.setData (val : Byte) : NotReserved.Statement (.setData val) := by
  intro _
  simp [encode, reservedWord_mkWord]

theorem NotReserved.getData : NotReserved.Statement .getData := fun _ => by decide

theorem NotReserved.setRdy : NotReserved.Statement .setRdy := fun _ => by decide

theorem NotReserved.unsetRdy : NotReserved.Statement .unsetRdy := fun _ => by decide

theorem NotReserved.setFlg : NotReserved.Statement .setFlg := fun _ => by decide

theorem NotReserved.getFlg : NotReserved.Statement .getFlg := fun _ => by decide

theorem NotReserved.selData : NotReserved.Statement .selData := fun _ => by decide

theorem NotReserved.selSeek : NotReserved.Statement .selSeek := fun _ => by decide

theorem NotReserved.selByteN : NotReserved.Statement .selByteN := fun _ => by decide

theorem NotReserved.selSectorN : NotReserved.Statement .selSectorN := fun _ => by decide

theorem NotReserved.selCtrl : NotReserved.Statement .selCtrl := fun _ => by decide

theorem NotReserved.selInvalid (code : Byte) : NotReserved.Statement (.selInvalid code) := by
  intro _
  simp [encode, reservedWord_mkWord]

theorem NotReserved.wr0Data (val : Byte) : NotReserved.Statement (.wr0Data val) := by
  intro _
  simp [encode, reservedWord_mkWord]

theorem NotReserved.wr0Seek (val : Byte) : NotReserved.Statement (.wr0Seek val) := by
  intro _
  simp [encode, reservedWord_mkWord]

theorem NotReserved.wr0ByteN (val : Byte) : NotReserved.Statement (.wr0ByteN val) := by
  intro _
  simp [encode, reservedWord_mkWord]

theorem NotReserved.wr0SectorN (val : Byte) : NotReserved.Statement (.wr0SectorN val) := by
  intro _
  simp [encode, reservedWord_mkWord]

theorem NotReserved.wr0Ctrl (val : Byte) : NotReserved.Statement (.wr0Ctrl val) := by
  intro _
  simp [encode, reservedWord_mkWord]

theorem NotReserved.rd0Data : NotReserved.Statement .rd0Data := fun _ => by decide

theorem NotReserved.rd0NotData : NotReserved.Statement .rd0NotData := fun _ => by decide

theorem NotReserved.rd1 : NotReserved.Statement .rd1 := fun _ => by decide

theorem NotReserved.load (p : Path) : NotReserved.Statement (.load p) := by
  intro _
  simp [encode, reservedWord_mkWord]

theorem NotReserved.pwr : NotReserved.Statement .pwr := fun _ => by decide

theorem NotReserved.ivl (k : Byte) : NotReserved.Statement (.ivl k) := by
  intro h
  have h : k.toNat < 4 := by simpa [Instr.wellFormed] using h
  simp [encode, reservedWord_mkWord, h]

theorem NotReserved.tick : NotReserved.Statement .tick := fun _ => by decide

end Sys2Proof.Laws
end

