-- ==== Sys2Proof/Tests/Slice0.lean ====
section
/-! SUPPORT. Tests of one step each, with the expected values of 95_test_vectors.md, decodings of words written out bit by
bit, and for every statement with hypotheses a witness that meets them. -/

namespace Sys2Proof.Tests

open Sys2Proof.Machine

/-! ### Small states -/

/-- A live DISK block in mode `m` with the cursor at `pos`; `Img[0x1234] = 0x7E`. -/
def disk (m : Mode) (pos : Nat) (r0 r1 : Cell) : State :=
  { State.reset with mode := m, diskPos := pos, reg0 := r0, reg1 := r1, ready := true, img := [(0x1234, 0x7E)] }

/-- A dead DISK block after its `die()`. -/
def deadDisk (m : Mode) (pos : Nat) : State :=
  { disk m pos (.holds 0xFF) (.holds 0xFF) with ready := false, dead := true }

/-- `s` with a backing file and the environment's answer to `FileWrite`. -/
def backed (s : State) (ok : Bool) : State :=
  { s with path := some "d", draw := { fileRead := none, fileWriteOk := ok } }

/-- `s` with a file the environment answers `FileRead` with. -/
def withFile (s : State) (bytes : List Byte) : State :=
  { s with draw := { fileRead := some bytes, fileWriteOk := false } }

/-- An OUTPUT block. -/
def output (r0 : Cell) (flag power : Bool) : State :=
  { State.resetFor (Config.standard .output) with reg0 := r0, flag := flag, power := power }

/-- What the vectors of DISK show of a state. -/
structure DiskView where
  mode : Mode
  pos : Nat
  r0 : Cell
  r1 : Cell
  rdy : Bool
  dead : Bool
  deriving DecidableEq, Repr

/-- What the vectors of OUTPUT show of a state. -/
structure OutputView where
  r0 : Cell
  rdy : Bool
  flg : Bool
  pwr : Bool
  trace : List Byte
  deriving DecidableEq, Repr

def disk? (o : Out) : Option DiskView :=
  (nextOf o).map fun t => ⟨t.mode, t.diskPos, t.reg0, t.reg1, t.ready, t.dead⟩

def output? (o : Out) : Option OutputView :=
  (nextOf o).map fun t => ⟨t.reg0, t.ready, t.flag, t.power, t.output⟩

/-- The value an operation hands back. -/
def reply? (o : Out) : Option Reply := (nextOf o).bind fun t => t.reply

/-- `s` with one operation presented. -/
def presenting (s : State) (role : Role) (form : Form) : State :=
  { s with pending := [{ role := role, form := form, path := "", draw := { fileRead := none, fileWriteOk := true } }] }

/-! ### Well-formedness: an ill-formed term for each check -/

theorem test_wellFormed_interval :
    (Instr.ivl 3).wellFormed = true ∧ (Instr.ivl 4).wellFormed = false ∧ (Instr.ivl 0xFF).wellFormed = false := by
  decide

theorem test_wellFormed_selector :
    (Instr.selInvalid 0x1A).wellFormed = true ∧ (Instr.selInvalid 0x00).wellFormed = false ∧
    (Instr.selInvalid 0x0A).wellFormed = false ∧ (Instr.selInvalid 0x0B).wellFormed = false ∧
    (Instr.selInvalid 0x0C).wellFormed = false ∧ (Instr.selInvalid 0x0F).wellFormed = false := by
  decide

/-! ### Decoding: words written out bit by bit from R61, R62, R66, R71, R73 and R76 -/

/-- The CPU port: op, idx, val (R62); E1, E2, E7, E12. -/
theorem test_decode_cpu :
    decodeIn none 0b0001000100001100 "" = .ok (.wr 1 0x0C) ∧ decodeIn none 0b0010000000000000 "" = .ok (.rd 0) ∧
    decodeIn none 0b0011000000000000 "" = .ok .rdy ∧ decodeIn none 0b0100000000000000 "" = .ok .rflag ∧
    decodeIn none 0b0101000000000000 "" = .ok .clf ∧
    decodeIn (some .data) 0b0001001000000000 "" = .ok (.wr 2 0x00) ∧
    decodeIn (some .data) 0b0010111100000000 "" = .ok (.rd 15) := ⟨rfl, rfl, rfl, rfl, rfl, rfl, rfl⟩

/-- The bindings (R73); E13, E14. -/
theorem test_decode_construction :
    decodeIn none 0b0110000100000010 "" = .ok (.bindw 1 .diskModeSelect) ∧
    decodeIn none 0b0110000100000011 "" = .ok (.bindw 1 .diskDataRead) ∧
    decodeIn none 0b0111000000000011 "" = .ok (.bindr 0 .diskDataRead) ∧
    decodeIn none 0b0111000100000001 "" = .ok (.bindr 1 .diskDataWrite) := ⟨rfl, rfl, rfl, rfl⟩

/-- The device side (R62, R83 to R88). -/
theorem test_decode_device :
    decodeIn none 0b1000000001000001 "" = .ok (.setData 0x41) ∧ decodeIn none 0b1001000000000000 "" = .ok .getData ∧
    decodeIn none 0b1010000000000000 "" = .ok .setRdy ∧ decodeIn none 0b1011000000000000 "" = .ok .unsetRdy ∧
    decodeIn none 0b1100000000000000 "" = .ok .setFlg ∧ decodeIn none 0b1101000000000000 "" = .ok .getFlg :=
  ⟨rfl, rfl, rfl, rfl, rfl, rfl⟩

/-- The selector codes on DISK (R66, R76), in whatever mode; M11, M12. -/
theorem test_decode_select :
    decodeIn (some .ctrl) 0b0001000100000000 "" = .ok .selData ∧
    decodeIn (some .data) 0b0001000100001010 "" = .ok .selSeek ∧
    decodeIn (some .data) 0b0001000100001011 "" = .ok .selByteN ∧
    decodeIn (some .seek) 0b0001000100001100 "" = .ok .selSectorN ∧
    decodeIn (some .data) 0b0001000100001111 "" = .ok .selCtrl ∧
    decodeIn (some .data) 0b0001000100000101 "" = .ok (.selInvalid 0x05) ∧
    decodeIn (some .data) 0b0001000100011010 "" = .ok (.selInvalid 0x1A) := ⟨rfl, rfl, rfl, rfl, rfl, rfl, rfl⟩

/-- The data register on DISK, by the mode (R76). -/
theorem test_decode_data :
    decodeIn (some .data) 0b0001000010101011 "" = .ok (.wr0Data 0xAB) ∧
    decodeIn (some .seek) 0b0001000011111111 "" = .ok (.wr0Seek 0xFF) ∧
    decodeIn (some .byteN) 0b0001000000110100 "" = .ok (.wr0ByteN 0x34) ∧
    decodeIn (some .sectorN) 0b0001000000010010 "" = .ok (.wr0SectorN 0x12) ∧
    decodeIn (some .ctrl) 0b0001000001101001 "" = .ok (.wr0Ctrl 0x69) ∧
    decodeIn (some .data) 0b0010000000000000 "" = .ok .rd0Data ∧
    decodeIn (some .byteN) 0b0010000000000000 "" = .ok .rd0NotData ∧
    decodeIn (some .seek) 0b0010000100000000 "" = .ok .rd1 := ⟨rfl, rfl, rfl, rfl, rfl, rfl, rfl, rfl⟩

/-- The host group (R71); E9, E16. -/
theorem test_decode_host :
    decodeIn none 0b1111000000000000 "a" = .ok (.load "a") ∧ decodeIn none 0b1111000100000000 "" = .ok .pwr ∧
    decodeIn none 0b1111001000000011 "" = .ok (.ivl 3) ∧ decodeIn none 0b1111001100000000 "" = .ok .tick :=
  ⟨rfl, rfl, rfl, rfl⟩

/-- The reserved words of R74: E4, E5, E6, E8, E10, E11, E15. -/
theorem test_decode_reserved :
    decode 0x2001 "" = .error .nonzeroField ∧ decode 0x0000 "" = .error .reservedOp ∧
    decode 0xE123 "" = .error .reservedOp ∧ decode 0x3100 "" = .error .nonzeroField ∧
    decode 0xF204 "" = .error .reservedInterval ∧ decode 0xF400 "" = .error .reservedHostOp ∧
    decode 0x6104 "" = .error .reservedDestination ∧ decode 0x8141 "" = .error .nonzeroField ∧
    decode 0xF101 "" = .error .nonzeroField := ⟨rfl, rfl, rfl, rfl, rfl, rfl, rfl, rfl, rfl⟩

/-- The encoder on the words R77 writes beside its lines. -/
theorem test_encode_lines :
    encode (.wr 1 0x0C) = 0x110C ∧ encode (.bindw 1 .diskModeSelect) = 0x6102 ∧
    encode (.bindr 0 .diskDataRead) = 0x7003 ∧ encode (.ivl 3) = 0xF203 ∧ encode (.load "p") = 0xF000 ∧
    encode .tick = 0xF300 := by decide

theorem test_assembler_lines :
    asmLine (.wr 1 12) = "WR 1, 12" ∧ asmLine (.bindw 1 .diskModeSelect) = "BINDW 1, DiskModeSelect" ∧
    asmLine .selSectorN = "WR 1, 12" ∧ asmLine (.ivl 3) = "IVL 3" := by decide

/-- A table word that is presented right after reset is the operation that runs (assumption 9). -/
theorem test_table_word :
    decodeTableWord 16 0x110A = some .selSeek ∧ decodeTableWord 16 0xE000 = none ∧
    disk? (step (State.reset.withFetchWord 16 0x110A)) = some ⟨.seek, 0, .holds 0, .holds 0x0A, true, false⟩ := by
  decide

/-! ### The CPU port and the controller (section 2.2 of the vectors) -/

/-- C1, and C4 with the MF2 of P-4. -/
theorem test_wr :
    output? (exec (.wr 0 0x41) (output .unwritten true false)) = some ⟨.holds 0x41, false, true, false, []⟩ ∧
    recordOf (exec (.wr 3 0x00) (disk .data 0 .unwritten .unwritten)) = some (.mf2 3) ∧
    recordOf (exec (.wr 5 0x05) (disk .data 0 .unwritten .unwritten)) = some (.mf2 5) := by decide

/-- C2, C3, R6. -/
theorem test_rd :
    recordOf (exec (.rd 0) (output .unwritten true false)) = some (.mf1 0) ∧
    reply? (exec (.rd 1) { output .unwritten true false with reg1 := .holds 0x07 }) = some (.byte 0x07) ∧
    recordOf (exec (.rd 0) State.reset) = some (.mf1 0) := by decide

/-- C8, O8. -/
theorem test_rdy :
    reply? (exec .rdy State.reset) = some (.bit false) ∧
    reply? (exec .rdy (disk .data 0 .unwritten .unwritten)) = some (.bit true) := by decide

/-- C7. -/
theorem test_rflag :
    reply? (exec .rflag (output .unwritten false true)) = some (.bit false) ∧
    reply? (exec .rflag State.reset) = some (.bit true) := by decide

/-- C5, C6. -/
theorem test_clf :
    (nextOf (exec .clf State.reset)).map State.flag = some false ∧
    (nextOf (exec .clf (output .unwritten false true))).map State.flag = some false := by decide

/-- R80's example, C11, C13, E14. -/
theorem test_bindw :
    (nextOf (exec (.bindw 1 .diskModeSelect) (State.bare (Config.standard .disk)))).map State.wdest1
      = some (some .diskModeSelect) ∧
    refusalOf (exec (.bindw 1 .diskModeSelect) State.reset) = some .rf3 ∧
    refusalOf (exec (.bindw 2 .diskDataWrite) (State.bare (Config.standard .disk))) = some .rf3 ∧
    refusalOf (exec (.bindw 1 .diskDataRead) (State.bare (Config.standard .disk))) = some .rf3 := by decide

/-- R81's example, C12. -/
theorem test_bindr :
    (nextOf (exec (.bindr 0 .diskDataRead) (State.bare (Config.standard .disk)))).map State.rdest0
      = some (some .diskDataRead) ∧
    refusalOf (exec (.bindr 1 .diskDataRead) { State.reset with constructing := false }) = some .rf5 := by decide

/-- C10 and the example of R84. -/
theorem test_device_data :
    (nextOf (exec (.setData 0x00) (deadDisk .data 0))).map State.reg0 = some (.holds 0x00) ∧
    reply? (exec .getData (output (.holds 0x41) true true)) = some (.byte 0x41) ∧
    recordOf (exec .getData State.reset) = some (.mf1 0) := by decide

/-- C9 and the examples of R86 to R88: the bus does not look at `dead`. -/
theorem test_device_bits :
    (nextOf (exec .setRdy (deadDisk .data 0))).map State.ready = some true ∧
    (nextOf (exec .unsetRdy (disk .data 0 .unwritten .unwritten))).map State.ready = some false ∧
    (nextOf (exec .setFlg (output .unwritten false true))).map State.flag = some true ∧
    reply? (exec .getFlg (output .unwritten false true)) = some (.bit false) := by decide

/-! ### Mode select (section 2.3 of the vectors) -/

/-- M1, M2, M9, M10. -/
theorem test_selData :
    disk? (exec .selData (disk .seek 0x1234 (.holds 0x00) (.holds 0x0A)))
      = some ⟨.data, 0x1234, .holds 0x7E, .holds 0x00, true, false⟩ ∧
    disk? (exec .selData (disk .data 0x1234 (.holds 0x55) (.holds 0x00)))
      = some ⟨.data, 0x1234, .holds 0x55, .holds 0x00, true, false⟩ ∧
    recordOf (exec .selData (disk .seek 65536 .unwritten .unwritten)) = some (.mf3 65536) ∧
    disk? (exec .selData (disk .data 65536 (.holds 0x5A) (.holds 0x00)))
      = some ⟨.data, 65536, .holds 0x5A, .holds 0x00, true, false⟩ := by decide

/-- M3, W6. -/
theorem test_selSeek :
    disk? (exec .selSeek (disk .data 0x1234 (.holds 0x7E) .unwritten))
      = some ⟨.seek, 0x1234, .holds 0x00, .holds 0x0A, true, false⟩ ∧
    disk? (exec .selSeek (disk .seek 0 (.holds 0x77) .unwritten))
      = some ⟨.seek, 0, .holds 0x77, .holds 0x0A, true, false⟩ := by decide

/-- M4, M7, M14. -/
theorem test_selByteN :
    disk? (exec .selByteN (disk .data 0x1234 .unwritten .unwritten))
      = some ⟨.byteN, 0x1234, .holds 0x34, .holds 0x0B, true, false⟩ ∧
    disk? (exec .selByteN (disk .data 65536 .unwritten .unwritten))
      = some ⟨.byteN, 65536, .holds 0x00, .holds 0x0B, true, false⟩ ∧
    disk? (exec .selByteN (deadDisk .data 0x10)) = some ⟨.byteN, 0x10, .holds 0x10, .holds 0x0B, false, true⟩ := by
  decide

/-- M5, M8. -/
theorem test_selSectorN :
    disk? (exec .selSectorN (disk .data 0x1234 .unwritten .unwritten))
      = some ⟨.sectorN, 0x1234, .holds 0x12, .holds 0x0C, true, false⟩ ∧
    recordOf (exec .selSectorN (disk .data 65536 .unwritten .unwritten)) = some (.mf5 65536) := by decide

/-- The fault points of M8, M9 and R3 (U9): the code is stored, the mode set and ready low; a read has only lowered
ready. -/
theorem test_fault_points :
    ((faultOf (exec .selSectorN (disk .data 65536 .unwritten .unwritten))).map fun f =>
      ((faulted f).reg1, (faulted f).mode, (faulted f).ready)) = some (.holds 0x0C, .sectorN, false) ∧
    ((faultOf (exec .selData (disk .seek 65536 .unwritten .unwritten))).map fun f =>
      ((faulted f).reg1, (faulted f).mode, (faulted f).ready)) = some (.holds 0x00, .data, false) ∧
    ((faultOf (exec .rd0Data (disk .data 65535 (.holds 0x20) .unwritten))).map fun f =>
      ((faulted f).reg0, (faulted f).diskPos, (faulted f).ready)) = some (.holds 0x20, 65535, false) := by decide

/-- M6. -/
theorem test_selCtrl :
    disk? (exec .selCtrl (disk .data 0x1234 .unwritten .unwritten))
      = some ⟨.ctrl, 0x1234, .holds 0x00, .holds 0x0F, true, false⟩ := by decide

/-- M11, M13, and P-2: DF1 and not MF3. -/
theorem test_selInvalid :
    disk? (exec (.selInvalid 0x05) (disk .data 0x10 (.holds 0x33) (.holds 0x00)))
      = some ⟨.data, 0x10, .holds 0xFF, .holds 0xFF, false, true⟩ ∧
    disk? (exec (.wr 1 0xFF) (disk .data 0x10 (.holds 0x33) (.holds 0x00)))
      = some ⟨.data, 0x10, .holds 0xFF, .holds 0xFF, false, true⟩ ∧
    disk? (exec (.selInvalid 0x05) (disk .data 65536 (.holds 0x33) (.holds 0x00)))
      = some ⟨.data, 65536, .holds 0xFF, .holds 0xFF, false, true⟩ := by decide

/-! ### Data-register writes (section 2.4 of the vectors) -/

/-- D1, D2, D19. -/
theorem test_wr0Data :
    disk? (exec (.wr0Data 0xAB) (disk .data 0x10 .unwritten (.holds 0)))
      = some ⟨.data, 0x11, .holds 0xAB, .holds 0, true, false⟩ ∧
    (nextOf (exec (.wr0Data 0x01) (disk .data 65535 .unwritten .unwritten))).map
      (fun t => (t.diskPos, memRead t.img 65535, memRead t.img 0x1234)) = some (65536, 0x01, 0x7E) ∧
    disk? (exec (.wr0Data 0x44) (deadDisk .data 3)) = some ⟨.data, 4, .holds 0x44, .holds 0xFF, false, true⟩ := by
  decide

/-- D3 and W4's death. -/
theorem test_wr0Data_dies :
    disk? (exec (.wr0Data 0x5B) (disk .data 65536 (.holds 0x5A) (.holds 0x00)))
      = some ⟨.data, 65536, .holds 0xFF, .holds 0xFF, false, true⟩ := by decide

/-- D4, D9, D10, D11, W3. -/
theorem test_wr0Seek :
    disk? (exec (.wr0Seek 0xFF) (disk .seek 0x1235 .unwritten (.holds 0x0A)))
      = some ⟨.seek, 0x1234, .holds 0xFF, .holds 0x0A, true, false⟩ ∧
    (nextOf (exec (.wr0Seek 0xFF) (disk .seek 65536 .unwritten .unwritten))).map State.diskPos = some 65535 ∧
    (nextOf (exec (.wr0Seek 0x80) (disk .seek 65536 .unwritten .unwritten))).map State.diskPos = some 65408 ∧
    (nextOf (exec (.wr0Seek 0x7F) (disk .seek 0 .unwritten .unwritten))).map State.diskPos = some 127 ∧
    (nextOf (exec (.wr0Seek 0x80) (disk .seek 200 .unwritten .unwritten))).map State.diskPos = some 72 := by decide

/-- D5, D7, D8, W3. -/
theorem test_wr0Seek_dies :
    disk? (exec (.wr0Seek 0xFF) (disk .seek 0 .unwritten .unwritten))
      = some ⟨.seek, 0, .holds 0xFF, .holds 0xFF, false, true⟩ ∧
    disk? (exec (.wr0Seek 0x01) (disk .seek 65535 .unwritten .unwritten))
      = some ⟨.seek, 65535, .holds 0xFF, .holds 0xFF, false, true⟩ ∧
    disk? (exec (.wr0Seek 0x00) (disk .seek 65536 .unwritten .unwritten))
      = some ⟨.seek, 65536, .holds 0xFF, .holds 0xFF, false, true⟩ := by decide

/-- W1, D12. -/
theorem test_wr0ByteN :
    (nextOf (exec (.wr0ByteN 0x34) (disk .byteN 0x12FF .unwritten .unwritten))).map State.diskPos = some 0x1234 ∧
    (nextOf (exec (.wr0ByteN 0x00) (disk .byteN 0xABCD .unwritten .unwritten))).map State.diskPos = some 0xAB00 ∧
    (nextOf (exec (.wr0ByteN 0x34) (disk .byteN 65536 .unwritten .unwritten))).map State.diskPos = some 0x0034 := by
  decide

/-- W2, D13, D14. -/
theorem test_wr0SectorN :
    (nextOf (exec (.wr0SectorN 0x12) (disk .sectorN 0x0034 .unwritten .unwritten))).map State.diskPos = some 0x1234 ∧
    (nextOf (exec (.wr0SectorN 0xFF) (disk .sectorN 0xABCD .unwritten .unwritten))).map State.diskPos = some 0xFFCD ∧
    (nextOf (exec (.wr0SectorN 0xAB) (disk .sectorN 0x1234 .unwritten .unwritten))).map State.diskPos = some 0xAB34 ∧
    (nextOf (exec (.wr0SectorN 0x00) (disk .sectorN 0x12FF .unwritten .unwritten))).map State.diskPos = some 0x00FF := by
  decide

/-- D15 with P-3 (no file request), D18. -/
theorem test_wr0Ctrl :
    disk? (exec (.wr0Ctrl 0x69) (disk .ctrl 0 .unwritten .unwritten))
      = some ⟨.ctrl, 0, .holds 0xFF, .holds 0xFF, false, true⟩ ∧
    (nextOf (exec (.wr0Ctrl 0x69) (disk .ctrl 0 .unwritten .unwritten))).map State.fileRequests = some [] ∧
    disk? (exec (.wr0Ctrl 0x00) (disk .ctrl 7 .unwritten (.holds 0x0F)))
      = some ⟨.ctrl, 7, .holds 0x00, .holds 0x0F, true, false⟩ := by decide

/-- D16, D17. -/
theorem test_wr0Ctrl_sync :
    (nextOf (exec (.wr0Ctrl 0x69) (backed (disk .ctrl 0 .unwritten .unwritten) true))).map
      (fun t => (t.fileRequests, t.reg0, t.ready)) = some ([.write "d" [(0x1234, 0x7E)]], .holds 0x69, true) ∧
    recordOf (exec (.wr0Ctrl 0x69) (backed (disk .ctrl 0 .unwritten .unwritten) false)) = some .io2 ∧
    (faultOf (exec (.wr0Ctrl 0x69) (backed (disk .ctrl 0 .unwritten .unwritten) false))).map
      (fun f => ((faulted f).ready, (faulted f).reg0)) = some (false, .holds 0x69) := by decide

/-! ### Data-register reads (section 2.5 of the vectors) -/

/-- R1 at another cursor, R8. -/
theorem test_rd0Data :
    disk? (exec .rd0Data (disk .data 0x1233 (.holds 0x01) .unwritten))
      = some ⟨.data, 0x1234, .holds 0x7E, .unwritten, true, false⟩ ∧
    reply? (exec .rd0Data (disk .data 0x1233 (.holds 0x01) .unwritten)) = some (.byte 0x01) ∧
    disk? (exec .rd0Data (deadDisk .data 0x1233)) = some ⟨.data, 0x1234, .holds 0x7E, .holds 0xFF, false, true⟩ := by
  decide

/-- R2, R3, R4, and R9 under `READ_SAMPLE = AFTER_HANDLER`. -/
theorem test_rd0Data_ends :
    (nextOf (exec .rd0Data (disk .data 65534 (.holds 0x10) .unwritten))).map State.diskPos = some 65535 ∧
    recordOf (exec .rd0Data (disk .data 65535 (.holds 0x20) .unwritten)) = some (.mf3 65536) ∧
    recordOf (exec .rd0Data (disk .data 65536 (.holds 0x5A) .unwritten)) = some (.mf3 65537) ∧
    reply? (exec .rd0Data { disk .data 0x1233 (.holds 0x01) .unwritten with
      cfg := { Config.standard .disk with readSample := .afterHandler } }) = some (.byte 0x7E) := by decide

/-- R5 and P-1: the sample comes first. -/
theorem test_rd0NotData :
    recordOf (exec .rd0NotData (disk .seek 5 (.holds 0x00) .unwritten)) = some (.mf4 .seek) ∧
    recordOf (exec .rd0NotData (disk .seek 5 .unwritten .unwritten)) = some (.mf1 0) := by decide

/-- M15, R7. -/
theorem test_rd1 :
    reply? (exec .rd1 (disk .seek 5 (.holds 0x00) (.holds 0x0A))) = some (.byte 0x0A) ∧
    recordOf (exec .rd1 State.reset) = some (.mf1 1) := by decide

/-! ### The host and the timer (sections 2.6 and 2.7 of the vectors) -/

/-- W7, L1, L3, L5. -/
theorem test_load :
    (nextOf (exec (.load "a") (withFile State.reset [1, 2, 3, 4]))).map
      (fun t => (t.img, t.reg0, t.ready, t.path)) = some ([(0, 1), (1, 2), (2, 3), (3, 4)], .holds 1, true, some "a") ∧
    disk? (exec (.load "e") (withFile State.reset [])) = some ⟨.data, 0, .holds 0, .unwritten, true, false⟩ ∧
    disk? (exec (.load "a") (withFile (disk .seek 77 (.holds 0) (.holds 0x0A)) [1, 2]))
      = some ⟨.seek, 0, .holds 1, .holds 0x0A, true, false⟩ ∧
    disk? (exec (.load "a") (withFile (deadDisk .data 9) [1, 2])) = some ⟨.data, 0, .holds 1, .holds 0xFF, false, true⟩ :=
  by decide

/-- L4, L6, and R71's refusal on OUTPUT. -/
theorem test_load_corners :
    recordOf (exec (.load "x") (disk .data 9 .unwritten .unwritten)) = some .io1 ∧
    disk? (exec (.load "a") { withFile (deadDisk .data 9) [1, 2] with
      cfg := { Config.standard .disk with loadClearsDead := true } })
      = some ⟨.data, 0, .holds 1, .holds 0xFF, true, false⟩ ∧
    refusalOf (exec (.load "a") (withFile (output .unwritten true false) [])) = some .rf4 := by decide

/-- O5, O9. -/
theorem test_pwr :
    (nextOf (exec .pwr (output .unwritten true false))).map State.power = some true ∧
    (nextOf (exec .pwr (output .unwritten true true))).map State.power = some false ∧
    refusalOf (exec .pwr State.reset) = some .rf4 := by decide

/-- O6 (100 ms) and R143's example (1000 ms). -/
theorem test_ivl :
    (nextOf (exec (.ivl 2) (output .unwritten true true))).map intervalMs = some 100 ∧
    (nextOf (exec (.ivl 3) (output .unwritten true true))).map intervalMs = some 1000 ∧
    refusalOf (exec (.ivl 4) (output .unwritten true true)) = some .rf1 := by decide

/-- O1, O4. -/
theorem test_tick :
    output? (exec .tick (output (.holds 0x41) false true)) = some ⟨.holds 0x41, false, true, true, [0x41]⟩ ∧
    recordOf (exec .tick (output .unwritten false true)) = some (.mf1 0) := by decide

/-- O2, O3. -/
theorem test_tick_disabled :
    output? (exec .tick (output (.holds 0x41) false false)) = some ⟨.holds 0x41, false, false, false, []⟩ ∧
    output? (exec .tick (output (.holds 0x41) true true)) = some ⟨.holds 0x41, false, true, true, []⟩ := by decide

/-! ### The port -/

/-- C14, L8, E5, D30. -/
theorem test_port_refusals :
    refusalOf (step (presenting State.reset .cpu (.fields 1 0 256))) = some .rf1 ∧
    refusalOf (step (presenting State.reset .cpu (.word 0xF000))) = some .rf4 ∧
    refusalOf (step (presenting State.reset .host (.word 0x1000))) = some .rf4 ∧
    refusalOf (step (presenting State.reset .cpu (.word 0x0000))) = some (.rf2 .reservedOp) ∧
    refusalOf (step (presenting State.reset .cpu (.encoder []))) = some .encoderAbsent := by decide

/-- The image keeps its form when a byte becomes 0 again, and when one is put between two. -/
theorem test_memWrite_form :
    memWrite [(1, 5), (3, 6)] 3 0 = [(1, 5)] ∧ memWrite [(1, 5), (3, 6)] 2 9 = [(1, 5), (2, 9), (3, 6)] ∧
    Memory.wf [(1, 5), (2, 9), (65535, 6)] = true ∧ Memory.wf [(65536, 6)] = false ∧
    Memory.wf [(2, 9), (1, 5)] = false ∧ Memory.wf [(2, 0)] = false := by decide

/-! ### Witnesses: for each statement with hypotheses, states and operands that meet them, clause by clause -/

/-- A DISK block in mode `m`, both cells written. -/
def live (m : Mode) (pos : Nat) : State := disk m pos (.holds 0x11) (.holds 0x22)

/-- `s` under `READ_SAMPLE = AFTER_HANDLER`. -/
def afterHandler (s : State) : State := { s with cfg := { s.cfg with readSample := .afterHandler } }

theorem witness_DecodeOfEncode :
    (Instr.ivl 3).wellFormed = true ∧ rowApplies none (.ivl 3) = true ∧
    (Instr.selInvalid 0xFF).wellFormed = true ∧ rowApplies (some .seek) (.selInvalid 0xFF) = true ∧
    (Instr.wr 15 0xFF).wellFormed = true ∧ rowApplies (some .ctrl) (.wr 15 0xFF) = true ∧
    (Instr.wr0Data 0xFF).wellFormed = true ∧ rowApplies (some .data) (.wr0Data 0xFF) = true := by decide

theorem witness_EncodeOfDecode :
    decodeIn (some .data) 0x1100 "" = .ok .selData ∧ decodeIn none 0xF000 "p" = .ok (.load "p") := ⟨rfl, rfl⟩

theorem witness_ReservedWordsRefused :
    reservedWord 0xE123 = true ∧ reservedWord 0xF204 = true ∧ reservedWord 0xF203 = false ∧
    (presenting State.reset .cpu (.word 0xE123)).faultRecord = none ∧
    (presenting State.reset .cpu (.word 0xE123)).pending.map Request.form = [.word 0xE123] := by decide

theorem witness_HighIndexDecodesThenFaults : 2 ≤ (2 : Nibble).toNat ∧ 2 ≤ (15 : Nibble).toNat := by decide

/-- For StepRunsDecodedOperation: a CPU word of the CPU role. -/
theorem witness_StepRunsDecodedOperation :
    State.reset.faultRecord = none ∧ wordOfForm (.fields 1 1 0x0C) = .ok 0x110C ∧
    decodeIn (diskMode State.reset) 0x110C "" = .ok .selSectorN ∧ roleOf .selSectorN = .cpu := ⟨rfl, rfl, rfl, rfl⟩

theorem witness_WrongRoleRefused :
    decodeIn (diskMode State.reset) 0x8041 "" = .ok (.setData 0x41) ∧ roleOf (.setData 0x41) ≠ .cpu ∧
    decodeIn (diskMode State.reset) 0xF000 "p" = .ok (.load "p") ∧ roleOf (.load "p") ≠ .cpu ∧
    decodeIn (diskMode State.reset) 0x5000 "" = .ok .clf ∧ roleOf .clf ≠ .host ∧
    decodeIn (diskMode State.reset) 0x6001 "" = .ok (.bindw 0 .diskDataWrite) ∧ roleOf (.bindw 0 .diskDataWrite) ≠ .cpu :=
  ⟨rfl, by decide, rfl, by decide, rfl, by decide, rfl, by decide⟩

/-- For WideOperandsRefused, at the ends of the three widths. -/
theorem witness_WideOperandsRefused :
    refusalOf (step (presenting State.reset .cpu (.fields 1 16 0))) = some .rf1 ∧
    refusalOf (step (presenting State.reset .cpu (.fields 1 0 256))) = some .rf1 ∧
    refusalOf (step (presenting State.reset .host (.fields 0xF 2 4))) = some .rf1 ∧
    recordOf (step (presenting State.reset .cpu (.fields 1 15 255))) = some (.mf2 15) ∧
    refusalOf (step (presenting State.reset .host (.fields 0xF 2 3))) = some .rf4 := by decide

/-- For FaultRecordNeverCleared: a step that faults, a recorded fault, and a step that ends normally. -/
theorem witness_FaultRecordNeverCleared :
    recordOf (step (presenting State.reset .cpu (.word 0x2000))) = some (.mf1 0) ∧
    ({ State.reset with faultRecord := some .io1 } : State).faultRecord = some .io1 ∧
    State.reset.faultRecord = none ∧ ∃ t, step State.reset = .next t :=
  ⟨by decide, rfl, rfl, _, rfl⟩

theorem witness_EnabledTickIsTaken :
    (output (.holds 0x41) false true).faultRecord = none ∧ (output (.holds 0x41) false true).pending = [] ∧
    (output (.holds 0x41) false true).cfg.personality = .output ∧ (output (.holds 0x41) false true).power = true ∧
    (output (.holds 0x41) false true).flag = false ∧ State.reset.cfg.personality = .disk ∧
    (output (.holds 0x41) false false).power = false ∧ (output (.holds 0x41) true true).flag = true := by decide

theorem witness_BindingsBuildTheDiskTable : (Config.standard .disk).personality = .disk := rfl

/-- For BindWriteChecks and BindReadChecks: after construction, a bound index, a personality with no destinations, and a
free index. -/
theorem witness_BindChecks :
    ({ State.reset with constructing := false } : State).constructing = false ∧ State.reset.constructing = true ∧
    State.reset.wdest0 ≠ none ∧ State.reset.wdest1 ≠ none ∧ State.reset.rdest0 ≠ none ∧ State.reset.rdest1 = none ∧
    (State.bare (Config.standard .output)).constructing = true ∧
    (State.bare (Config.standard .output)).cfg.personality = .output ∧
    (State.bare (Config.standard .disk)).constructing = true ∧
    (State.bare (Config.standard .disk)).cfg.personality = .disk ∧
    (State.bare (Config.standard .disk)).wdest0 = none ∧ (State.bare (Config.standard .disk)).wdest1 = none ∧
    (State.bare (Config.standard .disk)).rdest0 = none := by decide

theorem witness_UnboundWriteOnlyStores :
    (output .unwritten true false).wdest0 = none ∧ (output .unwritten true false).wdest1 = none := by decide

theorem witness_UnboundReadOnlyReturns :
    (output (.holds 7) true false).rdest0 = none ∧ (output (.holds 7) true false).reg0 = .holds 7 ∧
    (output .unwritten true false).reg0 = .unwritten ∧ State.reset.rdest1 = none ∧ State.reset.reg1 = .unwritten ∧
    (live .seek 0).rdest1 = none ∧ (live .seek 0).reg1 = .holds 0x22 := by decide

theorem witness_ControllerOperations :
    (output (.holds 0x41) true false).reg0 = .holds 0x41 ∧ State.reset.reg0 = .unwritten := by decide

/-- The states of every DISK mode that the mode-dependent statements ask for. -/
theorem witness_modes :
    diskMode (live .data 0) = some .data ∧ diskMode (live .seek 0) = some .seek ∧
    diskMode (live .byteN 0) = some .byteN ∧ diskMode (live .sectorN 0) = some .sectorN ∧
    diskMode (live .ctrl 0) = some .ctrl ∧ diskMode State.reset = some .data := by decide

/-- For SelectDataEchoesByte: from another mode at both ends of the cursor, and a re-selection. -/
theorem witness_SelectDataEchoesByte :
    diskMode (live .seek 65535) = some .seek ∧ (live .seek 65535).diskPos ≤ 65535 ∧
    (live .seek 65536).diskPos = 65536 ∧ Mode.seek ≠ Mode.data ∧ diskMode (live .data 65536) = some .data := by decide

theorem witness_SelectSeekEchoesZero :
    diskMode (live .data 65536) = some .data ∧ Mode.data ≠ Mode.seek ∧ diskMode (live .seek 0) = some .seek := by
  decide

theorem witness_SelectByteEchoesLowByte :
    diskMode (live .data 65536) = some .data ∧ Mode.data ≠ Mode.byteN ∧ diskMode (live .byteN 0) = some .byteN := by
  decide

theorem witness_SelectSectorEchoesHighByte :
    diskMode (live .data 65535) = some .data ∧ Mode.data ≠ Mode.sectorN ∧ (live .data 65535).diskPos ≤ 65535 ∧
    (live .data 65536).diskPos = 65536 ∧ diskMode (live .sectorN 0) = some .sectorN := by decide

theorem witness_SelectCtrlEchoesZero :
    diskMode (live .byteN 65536) = some .byteN ∧ Mode.byteN ≠ Mode.ctrl ∧ diskMode (live .ctrl 0) = some .ctrl := by
  decide

/-- For InvalidCodeDies: the codes beside the valid ones. -/
theorem witness_InvalidCodeDies :
    diskMode (deadDisk .ctrl 65536) = some .ctrl ∧
    ∀ c ∈ [(0x01 : Byte), 0x09, 0x0D, 0x0E, 0x10, 0xFF],
      c ≠ 0x00 ∧ c ≠ 0x0A ∧ c ≠ 0x0B ∧ c ≠ 0x0C ∧ c ≠ 0x0F := by decide

theorem witness_DataWriteStoresThenAdvances :
    diskMode (live .data 65535) = some .data ∧ Memory.wf (live .data 65535).img = true ∧
    (live .data 65535).diskPos ≤ 65535 ∧ (live .data 65536).diskPos = 65536 := by decide

/-- For SeekMovesOrDies: targets 0 and 65535, and -1 and 65536. -/
theorem witness_SeekMovesOrDies :
    diskMode (live .seek 128) = some .seek ∧ ((live .seek 128).diskPos : Int) + (0x80 : Byte).toInt = 0 ∧
    ((live .seek 65536).diskPos : Int) + (0xFF : Byte).toInt = 65535 ∧
    ((live .seek 127).diskPos : Int) + (0x80 : Byte).toInt < 0 ∧
    65535 < ((live .seek 65536).diskPos : Int) + (0x00 : Byte).toInt := by decide

theorem witness_CursorByteWrites :
    diskMode (live .byteN 65535) = some .byteN ∧ (live .byteN 65535).diskPos ≤ 65535 ∧
    (live .byteN 65536).diskPos = 65536 ∧ diskMode (live .sectorN 65535) = some .sectorN ∧
    (live .sectorN 65536).diskPos = 65536 := by decide

theorem witness_ControlWriteSyncsOrNothing :
    diskMode (live .ctrl 0) = some .ctrl ∧ (0x68 : Byte) ≠ 0x69 ∧ (live .ctrl 0).path = none ∧
    diskMode (backed (live .ctrl 0) true) = some .ctrl ∧ (backed (live .ctrl 0) true).path = some "d" ∧
    (backed (live .ctrl 0) true).draw.fileWriteOk = true ∧ (backed (live .ctrl 0) false).draw.fileWriteOk = false := by
  decide

/-- For DataReadAdvancesThenLoads: both samples, the cursor on both sides of 65535, and the unwritten cell. -/
theorem witness_DataReadAdvancesThenLoads :
    diskMode (live .data 65534) = some .data ∧ (live .data 65534).cfg.readSample = .beforeHandler ∧
    (live .data 65534).reg0 = .holds 0x11 ∧ (live .data 65534).diskPos < 65535 ∧ 65535 ≤ (live .data 65535).diskPos ∧
    State.reset.reg0 = .unwritten ∧ diskMode (afterHandler (live .data 65534)) = some .data ∧
    (afterHandler (live .data 65534)).cfg.readSample = .afterHandler := by decide

theorem witness_ReadOutsideDataFaults :
    diskMode (live .seek 0) = some .seek ∧ Mode.seek ≠ Mode.data ∧ (live .seek 0).reg0 ≠ .unwritten ∧
    (afterHandler (disk .ctrl 0 .unwritten .unwritten)).cfg.readSample = .afterHandler ∧
    (disk .ctrl 0 .unwritten .unwritten).reg0 = .unwritten ∧
    (disk .ctrl 0 .unwritten .unwritten).cfg.readSample = .beforeHandler := by decide

theorem witness_ReadModeRegister :
    diskMode (live .ctrl 0) = some .ctrl ∧ (live .ctrl 0).reg1 = .holds 0x22 ∧ State.reset.reg1 = .unwritten := by
  decide

/-- For ReadWriteAsymmetry: a byte prefetched at the last cursor that reads, and a write that a read can follow. -/
theorem witness_ReadWriteAsymmetry :
    diskMode (disk .data 0x1234 (.holds 0x7E) .unwritten) = some .data ∧
    (disk .data 0x1234 (.holds 0x7E) .unwritten).cfg.readSample = .beforeHandler ∧
    memRead (disk .data 0x1234 (.holds 0x7E) .unwritten).img 0x1234 = 0x7E ∧
    (live .data 65533).diskPos + 1 < 65535 ∧ Memory.wf (live .data 65533).img = true := by decide

theorem witness_SentinelBehaviour :
    (live .data 65535).diskPos = 65535 ∧ Memory.wf (live .data 65535).img = true ∧
    diskMode (live .data 65536) = some .data ∧ diskMode (live .seek 65536) = some .seek ∧
    (live .seek 65536).diskPos = 65536 ∧ (0x7F : Byte).toNat < 128 ∧ 128 ≤ (0x80 : Byte).toNat ∧
    65535 ≤ (live .data 65535).diskPos ∧ diskMode (live .data 65535) = some .data ∧
    diskMode (disk .data 65536 .unwritten .unwritten) = some .data ∧ Mode.seek ≠ Mode.data ∧
    Mode.data ≠ Mode.sectorN := by decide

theorem witness_LoadReplacesImage :
    (withFile State.reset [1]).cfg.personality = .disk ∧ (withFile State.reset [1]).draw.fileRead = some [1] ∧
    State.reset.draw.fileRead = none ∧ (output .unwritten true false).cfg.personality = .output := by decide

theorem witness_FileOfImageLoadsBack : Memory.wf [(0, 1), (65535, 2)] = true := by decide

/-- For LoadThenSyncReproducesFile: the sync finds the image and the path the load left. -/
theorem witness_LoadThenSyncReproducesFile :
    ∃ t, exec (.load "d") (withFile State.reset [1]) = .next t ∧
      diskMode (backed { t with mode := .ctrl } true) = some .ctrl ∧
      (backed { t with mode := .ctrl } true).img = t.img ∧ (backed { t with mode := .ctrl } true).path = t.path ∧
      (backed { t with mode := .ctrl } true).draw.fileWriteOk = true := ⟨_, rfl, by decide⟩

/-- For WriteHandlersEndReadyOrDead: a handler that completes alive, and one that dies. -/
theorem witness_WriteHandlersEndReadyOrDead :
    (∃ t, runWrite (some .diskDataWrite) 5 (live .data 0) = .next t) ∧
    ∃ t, runWrite (some .diskModeSelect) 5 (live .data 0) = .next t := ⟨⟨_, rfl⟩, _, rfl⟩

/-- For DeviceFaultCauses: each of the four causes, and a `WR` that has none of them. -/
theorem witness_DeviceFaultCauses :
    (live .seek 65536).dead = false ∧ (live .seek 65536).diskPos ≤ 65536 ∧ resolveMode 0x05 = none ∧
    (∃ t, exec (.wr 1 0x05) (live .data 0) = .next t ∧ t.dead = true) ∧
    (∃ t, exec (.wr 0 0x00) (live .seek 65536) = .next t ∧ t.dead = true) ∧
    (∃ t, exec (.wr 0 0x00) (live .data 65536) = .next t ∧ t.dead = true) ∧
    (∃ t, exec (.wr 0 0x69) (live .ctrl 0) = .next t ∧ t.dead = true) ∧
    ∃ t, exec (.wr 0 0x68) (live .ctrl 0) = .next t ∧ t.dead = false :=
  ⟨rfl, by decide, rfl, ⟨_, rfl, rfl⟩, ⟨_, rfl, rfl⟩, ⟨_, rfl, rfl⟩, ⟨_, rfl, rfl⟩, _, rfl, rfl⟩

theorem witness_DeadStateIsNotLeft :
    (deadDisk .data 0).dead = true ∧ (deadDisk .data 0).cfg.loadClearsDead = false ∧
    (∃ t, exec (.load "a") (withFile (deadDisk .data 0) []) = .next t) ∧
    (∃ t, exec .clf (deadDisk .data 0) = .next t) ∧ ∀ p, Instr.clf ≠ .load p := ⟨rfl, rfl, ⟨_, rfl⟩, ⟨_, rfl⟩, nofun⟩

theorem witness_DeadDeviceNeverReady :
    (deadDisk .data 0).dead = true ∧ (deadDisk .data 0).ready = false ∧ deviceOp .selSeek = false ∧
    (deadDisk .data 0).cfg.loadClearsDead = false ∧ (∃ t, exec .selSeek (deadDisk .data 0) = .next t) ∧
    (∀ p, Instr.selSeek ≠ .load p) ∧
    (∃ t, exec (.load "a") (withFile (deadDisk .data 0) []) = .next t) ∧ deviceOp (.load "a") = false :=
  ⟨rfl, rfl, rfl, rfl, ⟨_, rfl⟩, nofun, ⟨_, rfl⟩, rfl⟩

theorem witness_TickServesOneRequest :
    State.reset.cfg.personality = .disk ∧ (output (.holds 1) false true).cfg.personality = .output ∧
    (output (.holds 1) false true).power = true ∧ (output (.holds 1) false true).flag = false ∧
    (output (.holds 1) false true).reg0 = .holds 1 ∧ (output .unwritten false true).reg0 = .unwritten ∧
    (output (.holds 1) false false).power = false ∧ (output (.holds 1) true true).flag = true := by decide

theorem witness_PowerAndIntervalOperations :
    (output .unwritten true false).cfg.personality = .output ∧ State.reset.cfg.personality = .disk ∧
    (3 : Byte).toNat ≤ 3 ∧ 3 < (4 : Byte).toNat := by decide

/-- For OutputTraceGrowsByTicks and OutputStateWriters: a tick, a `PWR` and an `IVL` that complete. -/
theorem witness_output_steps :
    (∃ t, exec .tick (output (.holds 1) false true) = .next t ∧ t.output ≠ (output (.holds 1) false true).output) ∧
    (∃ t, exec .pwr (output (.holds 1) false true) = .next t ∧ t.power ≠ (output (.holds 1) false true).power) ∧
    ∃ t, exec (.ivl 3) (output (.holds 1) false true) = .next t ∧
      t.intervalK ≠ (output (.holds 1) false true).intervalK :=
  ⟨⟨_, rfl, by decide⟩, ⟨_, rfl, by decide⟩, _, rfl, by decide⟩

theorem witness_OutputNeverTouchesReady :
    (output (.holds 1) false true).cfg.personality = .output ∧ unbound (output (.holds 1) false true) = true ∧
    diskMode (output (.holds 1) false true) = none ∧ rowApplies none (.wr 0 5) = true ∧ deviceOp (.wr 0 5) = false ∧
    ∃ t, exec (.wr 0 5) (output (.holds 1) false true) = .next t := ⟨rfl, rfl, rfl, rfl, rfl, _, rfl⟩

/-- For PowerGatesOnlyTheTick and NoRuleReadsTheInterval: an operation that completes, and one that faults, whose fault
point holds the changed field. -/
theorem witness_PowerGatesOnlyTheTick :
    Instr.clf ≠ .tick ∧ Instr.clf ≠ .pwr ∧ Instr.rd 2 ≠ .tick ∧ Instr.rd 2 ≠ .pwr ∧
    exec (.rd 2) { State.reset with power := true } = .fault (.mf2 2 { State.reset with power := true }) :=
  ⟨nofun, nofun, nofun, nofun, rfl⟩

theorem witness_NoRuleReadsTheInterval :
    (∀ n, Instr.tick ≠ .ivl n) ∧ (∀ n, Instr.rd 2 ≠ .ivl n) ∧
    exec (.rd 2) { State.reset with intervalK := 2 } = .fault (.mf2 2 { State.reset with intervalK := 2 }) :=
  ⟨nofun, nofun, rfl⟩

theorem witness_ConfigurationIsFixed :
    (∃ t, exec .clf { State.reset with constructing := false } = .next t) ∧
    (∃ t, exec (.bindr 1 .diskDataRead) State.reset = .next t) ∧ (∀ j d, Instr.bindr 1 .diskDataRead ≠ .bindw j d) ∧
    (∀ j d, Instr.clf ≠ .bindr j d) := ⟨⟨_, rfl⟩, ⟨_, rfl⟩, nofun, nofun⟩

/-- For FlagWriters: the flag raised, and the flag cleared. -/
theorem witness_FlagWriters :
    (∃ t, exec .setFlg (output .unwritten false true) = .next t ∧ t.flag ≠ (output .unwritten false true).flag) ∧
    ∃ t, exec .clf State.reset = .next t ∧ t.flag ≠ State.reset.flag := ⟨⟨_, rfl, by decide⟩, _, rfl, by decide⟩

/-- For ImageFrame: a store in DATA mode, and an operation that stores nothing. -/
theorem witness_ImageFrame :
    (∃ t, exec (.wr0Data 5) (live .data 65535) = .next t) ∧ (∀ p, Instr.wr0Data 5 ≠ .load p) ∧
    Memory.wf (live .data 65535).img = true ∧ (0 : Nat) ≠ (live .data 65535).diskPos ∧
    (∃ t, exec .clf (live .data 0) = .next t) ∧ (∀ v, Instr.clf ≠ .wr0Data v) ∧
    ¬ ((live .data 0).mode = .data ∧ ∃ j v, Instr.clf = .wr j v) ∧
    diskMode (live .data 0) = some .data ∧ (∃ t, exec (.wr 1 5) (live .data 0) = .next t) ∧
    ∀ p, Instr.wr 1 5 ≠ .load p :=
  ⟨⟨_, rfl⟩, nofun, rfl, by decide, ⟨_, rfl⟩, nofun, nofun, rfl, ⟨_, rfl⟩, nofun⟩

/-- For DiskStateWriters: each of the four pieces of state changes. -/
theorem witness_DiskStateWriters :
    diskMode (live .data 0) = some .data ∧ diskMode (backed (live .ctrl 0) true) = some .ctrl ∧
    (∃ t, exec .selCtrl (live .data 0) = .next t ∧ t.mode ≠ (live .data 0).mode) ∧
    (∃ t, exec (.load "a") (withFile (live .data 1) []) = .next t ∧ t.path ≠ (withFile (live .data 1) []).path ∧
      t.diskPos ≠ (withFile (live .data 1) []).diskPos ∧
      t.fileRequests ≠ (withFile (live .data 1) []).fileRequests) ∧
    ∃ t, exec (.wr0Ctrl 0x69) (backed (live .ctrl 0) true) = .next t ∧
      t.fileRequests ≠ (backed (live .ctrl 0) true).fileRequests :=
  ⟨rfl, rfl, ⟨_, rfl, by decide⟩, ⟨_, rfl, by decide, by decide, by decide⟩, _, rfl, by decide⟩

theorem witness_GotoReachesPosition :
    diskMode (deadDisk .data 65536) = some .data ∧ (deadDisk .data 65536).diskPos ≤ 65536 ∧ 65535 ≤ 65535 := by decide

theorem witness_SeekAndSyncPseudo :
    diskMode (live .data 128) = some .data ∧ pseudoInRange (.seek (-128)) = true ∧
    0 ≤ ((live .data 128).diskPos : Int) + (-128) ∧ ((live .data 128).diskPos : Int) + (-128) ≤ 65535 ∧
    (backed (live .data 128) true).path = some "d" ∧ (backed (live .data 128) true).draw.fileWriteOk = true := by decide

theorem witness_ReadyAfterWrite :
    diskMode (live .data 0) = some .data ∧ ∃ t, exec (.wr 1 0x0A) (live .data 0) = .next t := ⟨rfl, _, rfl⟩

/-- For StepKeepsInvariant: a state that is not the reset state, and a step from it. -/
theorem witness_StepKeepsInvariant :
    Inv (presenting (deadDisk .data 65536) .cpu (.word 0x110A)) ∧
    ∃ t, step (presenting (deadDisk .data 65536) .cpu (.word 0x110A)) = .next t :=
  ⟨⟨by decide, by decide, by decide, by decide, by decide⟩, _, rfl⟩

/-- For FaultedStateKeepsInvariant: a step of a dead device at the sentinel that ends in MF5. -/
theorem witness_FaultedStateKeepsInvariant :
    Inv (presenting (deadDisk .data 65536) .cpu (.word 0x110C)) ∧
    ∃ f, step (presenting (deadDisk .data 65536) .cpu (.word 0x110C)) = .fault f :=
  ⟨⟨by decide, by decide, by decide, by decide, by decide⟩, _, rfl⟩

end Sys2Proof.Tests
end

section
/-! The invariant of R29, R140 and R7 along the steps of a run: what the port hands to `exec`, then what each effect of an
operation leaves of the invariant. -/

namespace Sys2Proof.Machine

/-! ### What a step takes -/

/-- A step that answers a next state leaves the block idle, or performs the operation fetched. -/
theorem step_next {s t : State} (h : step s = .next t) :
    t = s ∨ ∃ i u, fetch s = .run i u ∧ exec i u = .next t := by
  unfold step at h
  split at h
  · cases h
  · injection h with h; exact .inl h.symm
  · cases h
  · next i u hf => exact .inr ⟨i, u, hf, h⟩

/-- An admitted operation is one its presenter's role may issue (R163). -/
theorem admitRequest_ok_role {r : Request} {s : State} {i : Instr} (h : admitRequest r s = .ok i) :
    roleOf i = r.role := by
  unfold admitRequest at h
  split at h
  · cases h
  · split at h
    · cases h
    · split at h
      · next hr => injection h with h; exact h ▸ hr
      · cases h

/-- What is fetched to run is a tick of the timer with nothing presented (R189), or the head of the pending operations,
presented by a role that may issue it (R49, R163). -/
theorem fetch_run {s u : State} {i : Instr} (h : fetch s = .run i u) :
    (i = .tick ∧ u = { s with reply := none }) ∨
    ∃ r rest, s.pending = r :: rest ∧ roleOf i = r.role ∧
      u = { s with pending := rest, draw := r.draw, reply := none } := by
  unfold fetch at h
  split at h
  · cases h
  · split at h
    · split at h
      · injection h with hi hu; exact .inl ⟨hi.symm, hu.symm⟩
      · cases h
    · next r rest hp =>
      split at h
      · cases h
      · next j ha =>
        injection h with hi hu
        subst hi
        exact .inr ⟨r, rest, hp, admitRequest_ok_role ha, hu.symm⟩

/-- Agents present the rest of the pending operations if they present all of them, and the first is not the device's. -/
theorem agentsOnly_of_pending_cons {s : State} {r : Request} {rest : List Request} (hp : s.pending = r :: rest)
    (h : agentsOnly s = true) : r.role ≠ .device ∧ agentsOnly { s with pending := rest } = true := by
  simpa [agentsOnly, hp] using h

/-- Under the invariant the block performs no device operation as a step of its own (R7). -/
theorem Inv.fetch_not_device {s u : State} {i : Instr} (h : Inv s) (hf : fetch s = .run i u) : deviceOp i = false := by
  rcases fetch_run hf with ⟨rfl, -⟩ | ⟨r, rest, hp, hr, -⟩
  · rfl
  · simpa [deviceOp, hr] using (agentsOnly_of_pending_cons hp h.agents).1

/-- Taking the next operation keeps the invariant. -/
theorem Inv.fetch {s u : State} {i : Instr} (h : Inv s) (hf : fetch s = .run i u) : Inv u := by
  rcases fetch_run hf with ⟨-, rfl⟩ | ⟨r, rest, hp, -, rfl⟩
  · exact { h with }
  · exact { h with agents := (agentsOnly_of_pending_cons hp h.agents).2 }

/-! ### What an operation leaves of the invariant -/

/-- The store of a `WR` touches no field the invariant reads. -/
theorem Inv.storeReg {s : State} (h : Inv s) (j : Nat) (v : Byte) : Inv (storeReg j v s) := by
  unfold Machine.storeReg setReg
  split
  · exact { h with }
  · exact { h with }

/-- Every write destination keeps the invariant: it moves the cursor to 65536 at most, and raises ready only on a live
device. -/
theorem Inv.writeEffect {v : Byte} {s t : State} (h : Inv s) (ht : WriteEffect v s t) : Inv t := by
  cases ht with
  | none => exact h
  -- Where a handler leaves `ready := !dead`, a dead device's ready is `!true`.
  | raised => exact { h with deadNotReady := congrArg not }
  | selected => exact { h with deadNotReady := congrArg not }
  | byte hp => exact { h with cursor := hp, deadNotReady := congrArg not, image := memWrite_wf h.image hp }
  | moved n hn => exact { h with cursor := Nat.le_succ_of_le hn, deadNotReady := congrArg not }
  | synced => exact { h with deadNotReady := congrArg not }
  | died => exact { h with deadNotReady := fun _ => rfl }

/-- Whatever a DISK block binds, it is no OUTPUT block with a destination (R140). -/
theorem outputUnbound_of_disk {s t : State} (hd : s.cfg.personality = .disk) :
    s.cfg.personality = .output → unbound t = true := by simp [hd]

/-- Every operation but the device's keeps the invariant; `SETRDY` is the one that would raise a dead device's ready
(R85). -/
theorem Inv.execEffect {i : Instr} {s t : State} (h : Inv s) (hi : deviceOp i = false) (ht : ExecEffect i s t) :
    Inv t := by
  cases ht with
  | write j v _ _ _ ht => exact (h.storeReg j v).writeEffect ht
  | readCell => exact { h with }
  | readAhead _ _ hp => exact { h with cursor := Nat.le_succ_of_le hp, deadNotReady := congrArg not }
  | readBit => exact { h with }
  | clearedFlag => exact { h with }
  | boundWrite0 _ _ _ _ _ hd => exact { h with outputUnbound := outputUnbound_of_disk hd }
  | boundWrite1 _ _ _ _ _ hd => exact { h with outputUnbound := outputUnbound_of_disk hd }
  | boundRead0 _ _ _ _ _ hd => exact { h with outputUnbound := outputUnbound_of_disk hd }
  | boundRead1 _ _ _ _ _ hd => exact { h with outputUnbound := outputUnbound_of_disk hd }
  | devData => exact { h with }
  | devReturn => exact { h with }
  | devReady hr => subst hr; cases hi
  | devUnready => exact { h with deadNotReady := fun _ => rfl }
  | devFlag => exact { h with }
  | loaded _ bytes =>
    exact { h with
      cursor := Nat.zero_le _
      deadNotReady := congrArg not
      image := normalizeFile_wf bytes }
  | toggled => exact { h with }
  | interval => exact { h with }
  | ticked => exact { h with }
  | idleTick => exact h

end Sys2Proof.Machine

open Sys2Proof.Machine

/-- Settles O59: a step leaves the block idle or performs an operation that is no device's, and every effect of such an
operation keeps the invariant. -/
theorem stepKeepsInvariant : Obligations.StepKeepsInvariant := by
  intro s t h hstep
  rcases step_next hstep with rfl | ⟨i, u, hf, hexec⟩
  · exact h
  · exact (h.fetch hf).execEffect (h.fetch_not_device hf) (exec_effect hexec)

end

section
/-! Who writes what, over every operation (10_state.md): each frame is read off `exec_effect`, one case per effect,
after one lemma that says what no register write touches. -/

namespace Sys2Proof.Machine

/-! ### What no register write touches -/

/-- The parts of the state that no register write and no write destination changes: the configuration and the
bindings, the flag, the path, and the OUTPUT elements. -/
structure WriteFrame (s t : State) : Prop where
  cfg : t.cfg = s.cfg
  wdest0 : t.wdest0 = s.wdest0
  wdest1 : t.wdest1 = s.wdest1
  rdest0 : t.rdest0 = s.rdest0
  rdest1 : t.rdest1 = s.rdest1
  flag : t.flag = s.flag
  path : t.path = s.path
  power : t.power = s.power
  intervalK : t.intervalK = s.intervalK
  output : t.output = s.output

/-- The store of a `WR` ends construction and writes one cell (R89). -/
theorem storeReg_eq (j : Nat) (v : Byte) (s : State) : storeReg j v s =
    { s with constructing := false, reg0 := if j = 0 then .holds v else s.reg0,
             reg1 := if j = 0 then s.reg1 else .holds v } := by
  unfold storeReg setReg
  split <;> rfl

theorem storeReg_writeFrame (j : Nat) (v : Byte) (s : State) : WriteFrame s (storeReg j v s) := by
  rw [storeReg_eq]
  constructor <;> rfl

theorem WriteEffect.writeFrame {v : Byte} {s t : State} (h : WriteEffect v s t) : WriteFrame s t := by
  cases h <;> constructor <;> rfl

theorem WriteEffect.constructing_eq {v : Byte} {s t : State} (h : WriteEffect v s t) :
    t.constructing = s.constructing := by
  cases h <;> rfl

/-- No write destination revives a dead device or raises its ready (R101, R118). -/
theorem WriteEffect.stays_dead {v : Byte} {s t : State} (h : WriteEffect v s t) (hd : s.dead = true) :
    t.dead = true ∧ (s.ready = false → t.ready = false) := by
  cases h with
  | none => exact ⟨hd, id⟩
  | died => exact ⟨rfl, fun _ => rfl⟩
  | _ => exact ⟨hd, fun _ => congrArg not hd⟩

theorem WriteFrame.trans {s t u : State} (h : WriteFrame s t) (h' : WriteFrame t u) : WriteFrame s u where
  cfg := h'.cfg.trans h.cfg
  wdest0 := h'.wdest0.trans h.wdest0
  wdest1 := h'.wdest1.trans h.wdest1
  rdest0 := h'.rdest0.trans h.rdest0
  rdest1 := h'.rdest1.trans h.rdest1
  flag := h'.flag.trans h.flag
  path := h'.path.trans h.path
  power := h'.power.trans h.power
  intervalK := h'.intervalK.trans h.intervalK
  output := h'.output.trans h.output

/-- A register write as a whole, the store and then its destination (R89). -/
theorem WriteEffect.writeFrame_of_store {j : Nat} {v : Byte} {s t : State} (h : WriteEffect v (storeReg j v s) t) :
    WriteFrame s t :=
  (storeReg_writeFrame j v s).trans h.writeFrame

/-! ### What an operation can have done at its fault point -/

/-- The state at the fault point of an operation keeps the invariant (U9). -/
theorem Inv.faultEffect {s t : State} (h : Inv s) (ht : FaultEffect s t) : Inv t := by
  cases ht with
  | untouched => exact h
  | begun => exact { h with }
  | lowered => exact { h with deadNotReady := fun _ => rfl }
  | readAhead hp => exact { h with cursor := Nat.le_succ_of_le hp, deadNotReady := congrArg not }
  | writing j v m => exact { h.storeReg j v with deadNotReady := fun _ => rfl }

/-- The invariant does not look at the fault record. -/
theorem Inv.faulted {f : Fault} (h : Inv (faultPoint f)) : Inv (faulted f) := { h with }

/-- A step that ends in a fault answers the one recorded, in the state it is taken in, or performs the operation
fetched. -/
theorem step_fault {s : State} {f : Fault} (h : step s = .fault f) :
    faultPoint f = s ∨ ∃ i u, fetch s = .run i u ∧ exec i u = .fault f := by
  unfold step at h
  split at h
  · injection h with h; exact .inl (h ▸ faultPoint_recordedFault _ s)
  · cases h
  · cases h
  · next i u hf => exact .inr ⟨i, u, hf, h⟩

end Sys2Proof.Machine

open Sys2Proof.Machine

/-- Settles O12: at reset the device is alive, the image is empty and nothing is presented, and only a DISK block has
destinations. -/
theorem resetMeetsInvariant : Obligations.ResetMeetsInvariant := by
  intro c
  have bare : Inv (State.bare c) :=
    { cursor := Nat.zero_le _, deadNotReady := nofun, image := rfl, outputUnbound := fun _ => rfl, agents := rfl }
  unfold State.resetFor
  split
  · next hp => exact { bare with outputUnbound := by simp [State.bare, hp] }
  · exact bare

/-- Settles O60: the fault point is the state before the step, or that of the operation fetched, which keeps the
invariant. -/
theorem faultedStateKeepsInvariant : Obligations.FaultedStateKeepsInvariant := by
  intro s f h hstep
  apply Inv.faulted
  rcases step_fault hstep with hs | ⟨i, u, hf, hexec⟩
  · exact hs ▸ h
  · exact (h.fetch hf).faultEffect (exec_fault hexec)

/-- Settles O44: every effect that raises ready does so on a live device only, but `SETRDY`, which is the device's. -/
theorem deadDeviceNeverReady : Obligations.DeadDeviceNeverReady := by
  intro s t i h hd hload
  cases exec_effect h with
  | write j v _ _ _ ht =>
    rw [storeReg_eq] at ht
    obtain ⟨hdead, hready⟩ := ht.stays_dead hd
    exact ⟨hdead, fun hr _ => hready hr⟩
  | readAhead => exact ⟨hd, fun _ _ => congrArg not hd⟩
  | devReady hi => exact ⟨hd, fun _ hdev => by subst hi; cases hdev⟩
  | devUnready => exact ⟨hd, fun _ _ => rfl⟩
  | loaded p _ hi =>
    have hkeep : s.cfg.loadClearsDead = false := hload.resolve_right fun hne => hne p hi
    simp [hd, hkeep]
  | _ => exact ⟨hd, fun hr _ => hr⟩

/-- Settles O43: the first half of O44. -/
theorem deadStateIsNotLeft : Obligations.DeadStateIsNotLeft :=
  fun s t i h hd hload => (deadDeviceNeverReady s t i h hd hload).1

/-- Settles O47: a tick that emits is the one effect that names the trace. -/
theorem outputTraceGrowsByTicks : Obligations.OutputTraceGrowsByTicks := by
  intro s t i h
  cases exec_effect h with
  | write _ _ _ _ _ ht => exact .inl ht.writeFrame_of_store.output
  | ticked v hi hv => exact .inr ⟨hi, v, hv, rfl⟩
  | _ => exact .inl rfl

/-- Settles O51: only the binding operations write a binding, and they need construction (CFG1). -/
theorem configurationIsFixed : Obligations.ConfigurationIsFixed := by
  intro s t i h
  cases exec_effect h with
  | write j v _ _ _ ht =>
    have frame := ht.writeFrame_of_store
    have built : t.constructing = false := ht.constructing_eq.trans (by rw [storeReg_eq])
    exact ⟨frame.cfg, fun _ => ⟨built, frame.wdest0, frame.wdest1, frame.rdest0, frame.rdest1⟩,
      fun _ => ⟨frame.wdest0, frame.wdest1⟩, fun _ => ⟨frame.rdest0, frame.rdest1⟩⟩
  | boundWrite0 j d _ hi hc | boundWrite1 j d _ hi hc =>
    exact ⟨rfl, fun hb => by simp [hc] at hb, fun hne => absurd hi (hne j d), fun _ => ⟨rfl, rfl⟩⟩
  | boundRead0 j d _ hi hc | boundRead1 j d _ hi hc =>
    exact ⟨rfl, fun hb => by simp [hc] at hb, fun _ => ⟨rfl, rfl⟩, fun hne => absurd hi (hne j d)⟩
  | _ => simp

/-- Settles O52: the three effects that write the flag are those of `SETFLG`, of a tick and of `CLF`. -/
theorem flagWriters : Obligations.FlagWriters := by
  intro s t i h hne
  cases exec_effect h with
  | write _ _ _ _ _ ht => exact absurd ht.writeFrame_of_store.flag hne
  | clearedFlag hi => exact .inr ⟨rfl, hi⟩
  | devFlag hi => exact .inl ⟨rfl, .inl hi⟩
  | ticked _ hi => exact .inl ⟨rfl, .inr hi⟩
  | _ => exact absurd rfl hne

/-- Settles O55: only `PWR` and `IVL` have an effect that names the power or the interval, and what they and a tick
leave names neither cell and not ready. -/
theorem outputStateWriters : Obligations.OutputStateWriters := by
  intro s t i h
  refine ⟨fun hne => ?_, fun hne => ?_, ?_⟩
  · cases exec_effect h with
    | write _ _ _ _ _ ht => exact absurd ht.writeFrame_of_store.power hne
    | toggled hi => exact hi
    | _ => exact absurd rfl hne
  · cases exec_effect h with
    | write _ _ _ _ _ ht => exact absurd ht.writeFrame_of_store.intervalK hne
    | interval k hi => exact ⟨k, hi⟩
    | _ => exact absurd rfl hne
  · rintro (rfl | rfl | ⟨k, rfl⟩)
    · obtain ⟨-, h⟩ := requireThat_eq_next.mp h
      injection h with h; subst h; exact ⟨rfl, rfl, rfl⟩
    · obtain ⟨-, h⟩ := requireThat_eq_next.mp h
      split at h
      · obtain ⟨v, -, h⟩ := withValue_eq_next.mp h
        injection h with h; subst h; exact ⟨rfl, rfl, rfl⟩
      · injection h with h; subst h; exact ⟨rfl, rfl, rfl⟩
    · obtain ⟨-, h⟩ := requireThat_eq_next.mp h
      obtain ⟨-, h⟩ := requireThat_eq_next.mp h
      injection h with h; subst h; exact ⟨rfl, rfl, rfl⟩

end

section
/-! The two write destinations of the DISK personality kept apart: the mode select, which alone changes the mode, and
the data-register write, which alone changes the image and makes requests (R54, R20, R95). -/

namespace Sys2Proof.Machine

/-! ### Which operation runs which destination -/

/-- `DiskDataWrite` in mode `m` (R110 to R114). -/
def dataHandler (m : Mode) (v : Byte) (s : State) : Out :=
  match m with
  | .data => diskStoreByte v s
  | .seek => diskSeek v s
  | .byteN => diskSetByte v s
  | .sectorN => diskSetSector v s
  | .ctrl => diskCommand v s

theorem diskDataWrite_eq (v : Byte) (s : State) : diskDataWrite v s = dataHandler s.mode v s := rfl

/-- The operation runs the mode select with code `v`: as a row of R76, or as a `WR` of an index bound to it. -/
inductive RunsModeSelect (i : Instr) (s : State) (v : Byte) : Prop where
  | row (hi : i = selectMode1 v ∨ i = .selInvalid v)
  | bound (idx : Nibble) (hi : i = .wr idx v) (hj : idx.toNat < numRegs)
      (hd : wdest idx.toNat s = some .diskModeSelect)

/-- The operation runs the data-register write of mode `m` with payload `v`: as a row of R76, or as a `WR` of an index
bound to it. -/
inductive RunsDataWrite (i : Instr) (s : State) (m : Mode) (v : Byte) : Prop where
  | row (hi : i = selectData0 m v)
  | bound (idx : Nibble) (hi : i = .wr idx v) (hj : idx.toNat < numRegs)
      (hd : wdest idx.toNat s = some .diskDataWrite) (hm : s.mode = m)

/-- A register write stores its cell, then runs no destination, the mode select or the data-register write (R89). -/
inductive WriteRun (i : Instr) (s t : State) : Prop where
  | storeOnly (j : Nat) (v : Byte) (ht : t = storeReg j v s)
  | modeSelect (j : Nat) (v : Byte) (hi : RunsModeSelect i s v) (ht : diskModeSelect v (storeReg j v s) = .next t)
  | dataWrite (j : Nat) (v : Byte) (m : Mode) (hi : RunsDataWrite i s m v)
      (ht : dataHandler m v (storeReg j v s) = .next t)

@[simp] theorem storeReg_mode (j : Nat) (v : Byte) (s : State) : (storeReg j v s).mode = s.mode := by rw [storeReg_eq]
@[simp] theorem storeReg_img (j : Nat) (v : Byte) (s : State) : (storeReg j v s).img = s.img := by rw [storeReg_eq]
@[simp] theorem storeReg_diskPos (j : Nat) (v : Byte) (s : State) : (storeReg j v s).diskPos = s.diskPos := by
  rw [storeReg_eq]
@[simp] theorem storeReg_path (j : Nat) (v : Byte) (s : State) : (storeReg j v s).path = s.path := by rw [storeReg_eq]
@[simp] theorem storeReg_fileRequests (j : Nat) (v : Byte) (s : State) :
    (storeReg j v s).fileRequests = s.fileRequests := by rw [storeReg_eq]

theorem execWr_run {idx : Nibble} {v : Byte} {s t : State} (h : exec (.wr idx v) s = .next t) :
    WriteRun (.wr idx v) s t := by
  simp only [exec, execWr] at h
  split at h
  · cases h
  · next hj =>
    have hj : idx.toNat < numRegs := Nat.lt_of_not_le hj
    cases hd : wdest idx.toNat s with
    | none => rw [hd] at h; injection h with h; exact .storeOnly _ v h.symm
    | some d =>
      rw [hd] at h
      cases d with
      | diskModeSelect => exact .modeSelect _ v (.bound idx rfl hj hd) h
      | diskDataWrite =>
        have hrun : dataHandler s.mode v (storeReg idx.toNat v s) = .next t := by
          rwa [← storeReg_mode, ← diskDataWrite_eq]
        exact .dataWrite _ v s.mode (.bound idx rfl hj hd rfl) hrun

/-- Every operation that is a register write runs as one. -/
theorem exec_writeRun {i : Instr} {s t : State} {w : Nat × Byte} (hi : writeOperands i = some w)
    (h : exec i s = .next t) : WriteRun i s t := by
  cases i
  case wr idx v => exact execWr_run h
  case selData => exact .modeSelect 1 0x00 (.row (.inl rfl)) h
  case selSeek => exact .modeSelect 1 0x0A (.row (.inl rfl)) h
  case selByteN => exact .modeSelect 1 0x0B (.row (.inl rfl)) h
  case selSectorN => exact .modeSelect 1 0x0C (.row (.inl rfl)) h
  case selCtrl => exact .modeSelect 1 0x0F (.row (.inl rfl)) h
  case selInvalid v => exact .modeSelect 1 v (.row (.inr rfl)) h
  case wr0Data v => exact .dataWrite 0 v .data (.row rfl) h
  case wr0Seek v => exact .dataWrite 0 v .seek (.row rfl) h
  case wr0ByteN v => exact .dataWrite 0 v .byteN (.row rfl) h
  case wr0SectorN v => exact .dataWrite 0 v .sectorN (.row rfl) h
  case wr0Ctrl v => exact .dataWrite 0 v .ctrl (.row rfl) h
  all_goals cases hi

/-! ### What each destination leaves -/

/-- The mode select leaves the image and the requests, and a changed mode is the one its code names (R102, R109). -/
theorem diskModeSelect_frame {v : Byte} {s t : State} (h : diskModeSelect v s = .next t) :
    t.img = s.img ∧ t.fileRequests = s.fileRequests ∧ (t.mode = s.mode ∨ resolveMode v = some t.mode) := by
  unfold diskModeSelect at h
  split at h
  · rw [diskSelectInvalid_eq] at h; injection h with h; subst h; exact ⟨rfl, rfl, .inl rfl⟩
  · next m hv =>
    rcases diskSelect_next h with ⟨-, rfl⟩ | ⟨-, e, -, rfl⟩
    · exact ⟨rfl, rfl, .inl rfl⟩
    · exact ⟨rfl, rfl, .inr hv⟩

/-- What the data-register write of mode `m` can leave (R110 to R114). -/
inductive DataEffect (m : Mode) (v : Byte) (s : State) : State → Prop where
  | died : DataEffect m v s (die (unsetReady s))
  | moved (n : Nat) : DataEffect m v s { s with diskPos := n, ready := !s.dead }
  | stored (hm : m = .data) (hp : s.diskPos < imageSize) :
      DataEffect m v s { s with img := memWrite s.img s.diskPos v, diskPos := s.diskPos + 1, ready := !s.dead }
  | synced (p : Path) (hm : m = .ctrl) (hv : v = syncCode) (hp : s.path = some p) :
      DataEffect m v s { s with fileRequests := s.fileRequests ++ [.write p s.img], ready := !s.dead }

theorem diskCommand_dataEffect {v : Byte} {s t : State} (h : diskCommand v s = .next t) : DataEffect .ctrl v s t := by
  rw [diskCommand_eq] at h
  split at h
  · next hv =>
    split at h
    · injection h with h; exact h ▸ .died
    · next p hp =>
      split at h
      · injection h with h; exact h ▸ .synced p rfl hv hp
      · cases h
  · injection h with h; exact h ▸ .moved s.diskPos

theorem dataHandler_effect {m : Mode} {v : Byte} {s t : State} (h : dataHandler m v s = .next t) :
    DataEffect m v s t := by
  cases m <;> simp only [dataHandler] at h
  case data =>
    rcases diskStoreByte_next h with ⟨-, rfl⟩ | ⟨hp, rfl⟩
    · exact .died
    · exact .stored rfl hp
  case seek =>
    rw [diskSeek_eq] at h
    split at h
    · injection h with h; exact h ▸ .died
    · injection h with h; exact h ▸ .moved _
  case byteN => rw [diskSetByte_eq] at h; injection h with h; exact h ▸ .moved _
  case sectorN => rw [diskSetSector_eq] at h; injection h with h; exact h ▸ .moved _
  case ctrl => exact diskCommand_dataEffect h

/-! ### The writers of the image, the mode, the requests and the cursor -/

/-- Only a `LOAD` and a DATA-mode write touch the image, the latter at the cursor (R54). -/
theorem exec_img {i : Instr} {s t : State} (h : exec i s = .next t) :
    t.img = s.img ∨ (∃ p, i = .load p) ∨
    ∃ v, RunsDataWrite i s .data v ∧ s.diskPos < imageSize ∧ t.img = memWrite s.img s.diskPos v := by
  cases exec_effect h with
  | write _ _ _ hw =>
    cases exec_writeRun hw h with
    | storeOnly j v ht => exact .inl (by simp [ht])
    | modeSelect j v _ ht =>
      obtain ⟨himg, -, -⟩ := diskModeSelect_frame ht
      exact .inl (by simpa using himg)
    | dataWrite j v m hi ht =>
      cases dataHandler_effect ht with
      | stored hm hp => subst hm; exact .inr (.inr ⟨v, hi, by simpa using hp, by simp⟩)
      | _ => exact .inl (by simp)
  | loaded p _ hi => exact .inr (.inl ⟨p, hi⟩)
  | devData => exact .inl (setReg_zero_img ..)
  | _ => exact .inl rfl

/-- Only the mode select touches the mode, and sets the one its code names (R20). -/
theorem exec_mode {i : Instr} {s t : State} (h : exec i s = .next t) :
    t.mode = s.mode ∨ ∃ v, RunsModeSelect i s v ∧ resolveMode v = some t.mode := by
  cases exec_effect h with
  | write _ _ _ hw =>
    cases exec_writeRun hw h with
    | storeOnly j v ht => exact .inl (by simp [ht])
    | modeSelect j v hi ht =>
      obtain ⟨-, -, hmode⟩ := diskModeSelect_frame ht
      rw [storeReg_mode] at hmode
      exact hmode.imp_right fun hv => ⟨v, hi, hv⟩
    | dataWrite j v m _ ht => exact .inl (by cases dataHandler_effect ht <;> simp)
  | _ => exact .inl rfl

/-- Only a `LOAD` and a sync make a file request (R95). -/
theorem exec_fileRequests {i : Instr} {s t : State} (h : exec i s = .next t) :
    t.fileRequests = s.fileRequests ∨ (∃ p, i = .load p ∧ t.fileRequests = s.fileRequests ++ [.read p]) ∨
    (RunsDataWrite i s .ctrl syncCode ∧
      ∃ p, s.path = some p ∧ t.fileRequests = s.fileRequests ++ [.write p s.img]) := by
  cases exec_effect h with
  | write _ _ _ hw =>
    cases exec_writeRun hw h with
    | storeOnly j v ht => exact .inl (by simp [ht])
    | modeSelect j v _ ht =>
      obtain ⟨-, hreq, -⟩ := diskModeSelect_frame ht
      exact .inl (by simpa using hreq)
    | dataWrite j v m hi ht =>
      cases dataHandler_effect ht with
      | synced p hm hv hp => subst hm hv; exact .inr (.inr ⟨hi, p, by simpa using hp, by simp⟩)
      | _ => exact .inl (by simp)
  | loaded p _ hi => exact .inr (.inl ⟨p, hi, rfl⟩)
  | _ => exact .inl rfl

/-- The register writes and reads are the CPU's, and none is a transaction on a handshake bit (R163). -/
theorem registerOp_cpu {i : Instr} (h : (writeOperands i).isSome = true ∨ isRead i = true) :
    roleOf i = .cpu ∧ i ≠ .rdy ∧ i ≠ .rflag ∧ i ≠ .clf := by
  revert h
  cases i <;> simp [writeOperands, isRead, roleOf]

/-- Only a register write, a register read and a `LOAD` touch the cursor (R19). -/
theorem exec_diskPos {i : Instr} {s t : State} (h : exec i s = .next t) (hne : t.diskPos ≠ s.diskPos) :
    (roleOf i = .cpu ∧ i ≠ .rdy ∧ i ≠ .rflag ∧ i ≠ .clf) ∨ ∃ p, i = .load p := by
  cases exec_effect h with
  | write _ _ _ hw => exact .inl (registerOp_cpu (.inl (by rw [hw]; rfl)))
  | readAhead _ hi => exact .inl (registerOp_cpu (.inr hi))
  | loaded p _ hi => exact .inr ⟨p, hi⟩
  | _ => exact absurd rfl hne

/-- Only a `LOAD` touches the path, and sets its own (R22). -/
theorem exec_path {i : Instr} {s t : State} (h : exec i s = .next t) (hne : t.path ≠ s.path) :
    ∃ p, i = .load p ∧ t.path = some p := by
  cases exec_effect h with
  | write _ _ _ _ _ ht => exact absurd ht.writeFrame_of_store.path hne
  | loaded p _ hi => exact ⟨p, hi, rfl⟩
  | _ => exact absurd rfl hne

/-! ### Under the binding table of R100 -/

/-- A register index that exists is 0 or 1 (R10). -/
theorem nibble_eq_of_lt_numRegs {j : Nibble} (h : j.toNat < numRegs) : j = 0 ∨ j = 1 := by
  revert j
  decide

theorem not_runsDataWrite_wr_one {s : State} {m m' : Mode} {v v' : Byte} (hs : diskMode s = some m) :
    ¬ RunsDataWrite (.wr 1 v) s m' v' := by
  obtain ⟨-, -, hd1, -⟩ := diskMode_eq_some.mp hs
  rintro (hi | ⟨idx, hi, -, hd, -⟩)
  · cases m' <;> cases hi
  · cases hi; simp [wdest, hd1] at hd

/-- No row of the mode select is spelled `WR`. -/
theorem selectMode1_ne_wr (v w : Byte) (j : Nibble) : selectMode1 v ≠ .wr j w := by
  unfold selectMode1
  split <;> nofun

theorem not_runsModeSelect_wr_zero {s : State} {m : Mode} {v v' : Byte} (hs : diskMode s = some m) :
    ¬ RunsModeSelect (.wr 0 v) s v' := by
  obtain ⟨-, hd0, -⟩ := diskMode_eq_some.mp hs
  rintro ((hi | hi) | ⟨idx, hi, -, hd⟩)
  · exact selectMode1_ne_wr _ _ _ hi.symm
  · cases hi
  · cases hi; simp [wdest, hd0] at hd

/-- The operation that runs the mode select with code `v` is a write of that code. -/
theorem RunsModeSelect.writes {i : Instr} {s : State} {v : Byte} (h : RunsModeSelect i s v) :
    i = .wr 1 v ∨ i = .wr 0 v ∨ i = selectMode1 v ∨ i = .selInvalid v := by
  cases h with
  | row hi => exact .inr (.inr hi)
  | bound j hi hj =>
    rcases nibble_eq_of_lt_numRegs hj with rfl | rfl
    · exact .inr (.inl hi)
    · exact .inl hi

/-- The operation that runs the CTRL command `v` is a write of that command. -/
theorem RunsDataWrite.writes_ctrl {i : Instr} {s : State} {v : Byte} (h : RunsDataWrite i s .ctrl v) :
    i = .wr 0 v ∨ i = .wr 1 v ∨ i = .wr0Ctrl v := by
  cases h with
  | row hi => exact .inr (.inr hi)
  | bound j hi hj =>
    rcases nibble_eq_of_lt_numRegs hj with rfl | rfl
    · exact .inl hi
    · exact .inr (.inl hi)

end Sys2Proof.Machine

open Sys2Proof Sys2Proof.Machine

/-- Settles O53: the image is the one before, or that one written at the cursor by the DATA-mode handler, which
register 1 does not run under the table of R100. -/
theorem imageFrame : Obligations.ImageFrame := by
  intro s t i h hload hwf
  rcases exec_img h with heq | ⟨p, hp⟩ | ⟨v, hrun, hpos, himg⟩
  · simp [heq]
  · exact absurd hp (hload p)
  · refine ⟨fun a hrow hwr => ?_, fun a ha => ?_, fun m hs w hi => ?_⟩
    · cases hrun with
      | row hi => exact absurd hi (hrow v)
      | bound j hi _ _ hm => exact absurd ⟨hm, j, v, hi⟩ hwr
    · rw [himg, memRead_memWrite hwf, if_neg ha]
    · subst hi
      exact absurd hrun (not_runsDataWrite_wr_one hs)

/-- Settles O54: each of the four elements has its own writers, and the table of R100 binds the mode select to
register 1 and the data-register write to register 0. -/
theorem diskStateWriters : Obligations.DiskStateWriters := by
  intro s t i h
  refine ⟨fun hne => ?_, exec_path h, exec_diskPos h, fun hne => ?_,
    fun m hs => ⟨fun hne v hi => ?_, fun hne v hi => ?_⟩⟩
  · obtain ⟨v, hrun, hv⟩ := (exec_mode h).resolve_left hne
    exact ⟨v, hv, hrun.writes⟩
  · exact ((exec_fileRequests h).resolve_left hne).imp_right fun ⟨hrun, hp⟩ => ⟨hrun.writes_ctrl, hp⟩
  · subst hi
    obtain ⟨v', hrun, -⟩ := (exec_mode h).resolve_left hne
    exact not_runsModeSelect_wr_zero hs hrun
  · subst hi
    rcases (exec_fileRequests h).resolve_left hne with ⟨p, hp, -⟩ | ⟨hrun, -⟩
    · cases hp
    · exact not_runsDataWrite_wr_one hs hrun

end

section
/-! Non-interference of the two elements of the poll timer, the power and the interval (R23, R24): an operation
commutes with any change of them, but `PWR`, `IVL` and `TICK`, which do so where the change keeps what they read and
write. -/

namespace Sys2Proof.Machine

/-- The state with the power changed by `a` and the interval by `c`. -/
def mapPoll (a : Bool → Bool) (c : BitVec 2 → BitVec 2) (s : State) : State :=
  { s with power := a s.power, intervalK := c s.intervalK }

/-! ### Changing the state an outcome leaves, through the sequencing operations -/

section
variable {g : State → State}

theorem andThen_mapState {o o' : Out} {k k' : State → Out} (ho : o' = mapState g o)
    (hk : ∀ u, k' (g u) = mapState g (k u)) : andThen o' k' = mapState g (andThen o k) := by
  subst ho
  cases o with
  | next u => exact hk u
  | fault f => rfl
  | refused r => rfl

theorem withValue_mapState {α : Type} {v v' : Except Fault α} {k k' : α → Out}
    (hv : v' = v.mapError (mapFaultPoint g)) (hk : ∀ x, k' x = mapState g (k x)) :
    withValue v' k' = mapState g (withValue v k) := by
  subst hv
  cases v with
  | ok x => exact hk x
  | error f => rfl

theorem requireThat_mapState {b : Bool} {r : Refusal} {k k' : Out} (hk : k' = mapState g k) :
    requireThat b r k' = mapState g (requireThat b r k) := by
  cases b with
  | true => exact hk
  | false => rfl

theorem ite_mapState {p : Prop} [Decidable p] {o₁ o₂ o₁' o₂' : Out} (h₁ : o₁' = mapState g o₁)
    (h₂ : o₂' = mapState g o₂) : (if p then o₁' else o₂') = mapState g (if p then o₁ else o₂) := by
  split
  · exact h₁
  · exact h₂

end

/-! ### No read looks at the poll timer -/

section
variable (a : Bool → Bool) (c : BitVec 2 → BitVec 2)

theorem readReg_mapPoll (j : Nat) (s : State) :
    readReg j (mapPoll a c s) = (readReg j s).mapError (mapFaultPoint (mapPoll a c)) := by
  have hcell : regCell j (mapPoll a c s) = regCell j s := rfl
  unfold readReg
  rw [hcell]
  split <;> rfl

theorem readImg_mapPoll (p : Nat) (s : State) :
    readImg p (mapPoll a c s) = (readImg p s).mapError (mapFaultPoint (mapPoll a c)) := by
  unfold readImg
  rw [apply_ite (Except.mapError _)]
  rfl

theorem echo_mapPoll (m : Mode) (s : State) :
    echo m (mapPoll a c s) = (echo m s).mapError (mapFaultPoint (mapPoll a c)) := by
  cases m with
  | data => exact readImg_mapPoll a c s.diskPos s
  | sectorN =>
    simp only [echo]
    rw [apply_ite (Except.mapError _)]
    rfl
  | seek | byteN | ctrl => rfl

/-! ### No destination looks at the poll timer -/

theorem storeReg_mapPoll (j : Nat) (v : Byte) (s : State) :
    storeReg j v (mapPoll a c s) = mapPoll a c (storeReg j v s) := by
  simp only [storeReg_eq]; rfl

theorem diskSelect_mapPoll (m : Mode) (s : State) :
    diskSelect m (mapPoll a c s) = mapState (mapPoll a c) (diskSelect m s) := by
  simp only [diskSelect_eq]
  exact ite_mapState rfl (withValue_mapState (echo_mapPoll a c m { s with ready := false, mode := m }) fun _ => rfl)

theorem diskModeSelect_mapPoll (v : Byte) (s : State) :
    diskModeSelect v (mapPoll a c s) = mapState (mapPoll a c) (diskModeSelect v s) := by
  unfold diskModeSelect
  split
  · rfl
  · exact diskSelect_mapPoll a c _ s

/-- What a DATA write answers (R110): DF3 at the sentinel, MF3 past it, else the byte stored, the cursor advanced. -/
theorem diskStoreByte_eq (v : Byte) (s : State) : diskStoreByte v s =
    if s.diskPos = posMax then .next (die (unsetReady s))
    else if s.diskPos < imageSize then
      .next { s with img := memWrite s.img s.diskPos v, diskPos := s.diskPos + 1, ready := !s.dead }
    else .fault (.mf3 s.diskPos { s with ready := false }) := by
  by_cases hp : s.diskPos = posMax
  · simp [diskStoreByte, deviceFault, hp]
  · by_cases hlt : s.diskPos < imageSize
    · simp [diskStoreByte, writeImg, hp, hlt, devRaiseReady_eq, unsetReady]
    · simp [diskStoreByte, writeImg, hp, hlt, unsetReady]

theorem diskStoreByte_mapPoll (v : Byte) (s : State) :
    diskStoreByte v (mapPoll a c s) = mapState (mapPoll a c) (diskStoreByte v s) := by
  simp only [diskStoreByte_eq]
  exact ite_mapState rfl (ite_mapState rfl rfl)

theorem diskCommand_mapPoll (v : Byte) (s : State) :
    diskCommand v (mapPoll a c s) = mapState (mapPoll a c) (diskCommand v s) := by
  simp only [diskCommand_eq]
  refine ite_mapState ?_ rfl
  have hpath : (mapPoll a c s).path = s.path := rfl
  rw [hpath]
  split
  · rfl
  · exact ite_mapState rfl rfl

theorem dataHandler_mapPoll (m : Mode) (v : Byte) (s : State) :
    dataHandler m v (mapPoll a c s) = mapState (mapPoll a c) (dataHandler m v s) := by
  cases m with
  | data => exact diskStoreByte_mapPoll a c v s
  | seek => simp only [dataHandler, diskSeek_eq]; exact ite_mapState rfl rfl
  | byteN => simp only [dataHandler, diskSetByte_eq]; rfl
  | sectorN => simp only [dataHandler, diskSetSector_eq]; rfl
  | ctrl => exact diskCommand_mapPoll a c v s

theorem runWrite_mapPoll (d : Option WriteDest) (v : Byte) (s : State) :
    runWrite d v (mapPoll a c s) = mapState (mapPoll a c) (runWrite d v s) := by
  cases d with
  | none => rfl
  | some d =>
    cases d with
    | diskModeSelect => exact diskModeSelect_mapPoll a c v s
    | diskDataWrite => exact dataHandler_mapPoll a c s.mode v s

theorem diskPrefetch_mapPoll (s : State) :
    diskPrefetch (mapPoll a c s) = mapState (mapPoll a c) (diskPrefetch s) := by
  simp only [diskPrefetch_eq]
  exact ite_mapState rfl rfl

theorem runRead_mapPoll (d : Option ReadDest) (s : State) :
    runRead d (mapPoll a c s) = mapState (mapPoll a c) (runRead d s) := by
  cases d with
  | none => rfl
  | some d =>
    have hmode : (mapPoll a c s).mode = s.mode := rfl
    simp only [runRead, diskDataRead, hmode]
    cases s.mode with
    | data => exact diskPrefetch_mapPoll a c s
    | seek | byteN | sectorN | ctrl => rfl

theorem readThrough_mapPoll {j : Nat} {dest : State → Out}
    (hd : ∀ s, dest (mapPoll a c s) = mapState (mapPoll a c) (dest s)) (s : State) :
    readThrough j dest (mapPoll a c s) = mapState (mapPoll a c) (readThrough j dest s) := by
  have hcfg : (performed (mapPoll a c s)).cfg = (performed s).cfg := rfl
  unfold readThrough
  simp only [hcfg]
  split
  · exact withValue_mapState (readReg_mapPoll a c j (performed s)) fun _ =>
      andThen_mapState (hd (performed s)) fun _ => rfl
  · exact andThen_mapState (hd (performed s)) fun u =>
      withValue_mapState (readReg_mapPoll a c j u) fun _ => rfl

/-! ### The operations -/

theorem execLoad_mapPoll (p : Path) (s : State) :
    execLoad p (mapPoll a c s) = mapState (mapPoll a c) (execLoad p s) := by
  refine requireThat_mapState ?_
  have hdraw : (mapPoll a c s).draw = s.draw := rfl
  rw [hdraw]
  split
  · rfl
  · simp only [loadBytes_eq]; rfl

theorem execBindw_mapPoll (j : Nibble) (d : Dest) (s : State) :
    execBindw j d (mapPoll a c s) = mapState (mapPoll a c) (execBindw j d s) := by
  refine requireThat_mapState (requireThat_mapState (requireThat_mapState (requireThat_mapState ?_)))
  split
  · rfl
  · rw [mapState_next, apply_ite (mapPoll a c)]; rfl

theorem execBindr_mapPoll (j : Nibble) (d : Dest) (s : State) :
    execBindr j d (mapPoll a c s) = mapState (mapPoll a c) (execBindr j d s) := by
  refine requireThat_mapState (requireThat_mapState (requireThat_mapState (requireThat_mapState ?_)))
  split
  · rfl
  · rw [mapState_next, apply_ite (mapPoll a c)]; rfl

theorem execTick_mapPoll (ha : ∀ b, a b = b) (s : State) :
    execTick (mapPoll a c s) = mapState (mapPoll a c) (execTick s) := by
  refine requireThat_mapState ?_
  have htick : tickEnabled (mapPoll a c s) = tickEnabled s := by simp [tickEnabled, mapPoll, ha]
  rw [htick]
  exact ite_mapState (withValue_mapState (readReg_mapPoll a c 0 s) fun _ => rfl) rfl

/-- Every operation commutes with a change of the power and the interval, `PWR` where the change commutes with the
toggle, `IVL` where it keeps the interval and `TICK` where it keeps the power. -/
theorem exec_mapPoll {i : Instr} (hpwr : i = .pwr → ∀ b, a (!b) = !a b) (hivl : ∀ n, i = .ivl n → ∀ k, c k = k)
    (htick : i = .tick → ∀ b, a b = b) (s : State) :
    exec i (mapPoll a c s) = mapState (mapPoll a c) (exec i s) := by
  cases i
  case wr j v =>
    refine ite_mapState rfl ?_
    rw [storeReg_mapPoll]
    exact runWrite_mapPoll a c _ v _
  case rd j => exact ite_mapState rfl (readThrough_mapPoll a c (runRead_mapPoll a c _) s)
  case bindw j d => exact execBindw_mapPoll a c j d s
  case bindr j d => exact execBindr_mapPoll a c j d s
  case getData => exact withValue_mapState (readReg_mapPoll a c 0 s) fun _ => rfl
  case selData => exact diskSelect_mapPoll a c _ (storeReg 1 0x00 s)
  case selSeek => exact diskSelect_mapPoll a c _ (storeReg 1 0x0A s)
  case selByteN => exact diskSelect_mapPoll a c _ (storeReg 1 0x0B s)
  case selSectorN => exact diskSelect_mapPoll a c _ (storeReg 1 0x0C s)
  case selCtrl => exact diskSelect_mapPoll a c _ (storeReg 1 0x0F s)
  case selInvalid v => exact diskModeSelect_mapPoll a c v (storeReg 1 v s)
  case wr0Data v => exact dataHandler_mapPoll a c .data v (storeReg 0 v s)
  case wr0Seek v => exact dataHandler_mapPoll a c .seek v (storeReg 0 v s)
  case wr0ByteN v => exact dataHandler_mapPoll a c .byteN v (storeReg 0 v s)
  case wr0SectorN v => exact dataHandler_mapPoll a c .sectorN v (storeReg 0 v s)
  case wr0Ctrl v => exact dataHandler_mapPoll a c .ctrl v (storeReg 0 v s)
  case rd0Data => exact readThrough_mapPoll a c (diskPrefetch_mapPoll a c) s
  case rd0NotData => exact readThrough_mapPoll a c (fun _ => rfl) s
  case rd1 => exact readThrough_mapPoll a c (fun _ => rfl) s
  case load p => exact execLoad_mapPoll a c p s
  case pwr =>
    refine requireThat_mapState ?_
    simp [mapPoll, performed, hpwr]
  case ivl k =>
    refine requireThat_mapState (requireThat_mapState ?_)
    simp [mapPoll, performed, hivl]
  case tick => exact execTick_mapPoll a c (htick rfl) s
  all_goals rfl

end

end Sys2Proof.Machine

open Sys2Proof Sys2Proof.Machine

/-- Settles O50: the change of the interval alone keeps the power, which is all that `PWR` and `TICK` read of the poll
timer. -/
theorem noRuleReadsTheInterval : Obligations.NoRuleReadsTheInterval :=
  fun s _ k hivl => exec_mapPoll id (fun _ => k) (fun _ _ => rfl) (fun n hi => absurd hi (hivl n)) (fun _ _ => rfl) s

end

section
/-! The image as the file a sync writes and a load reads (R43, R55, R121, R123), and the step around
`exec` (R45, R49). -/

namespace Sys2Proof.Machine

/-! ### An image and its file -/

/-- The image made of a file from byte `k` on holds nothing below `k`. -/
theorem memRead_imageFrom_below (bytes : List Byte) : ∀ {k p : Nat}, p < k → memRead (imageFrom k bytes) p = 0 := by
  induction bytes with
  | nil => intros; rfl
  | cons b bs ih =>
    intro k p hp
    rw [imageFrom]
    split
    · exact ih (Nat.lt_succ_of_lt hp)
    · rw [memRead, if_neg hp.ne', ih (Nat.lt_succ_of_lt hp)]

/-- The image made of a file from byte `k` on holds file byte `j` at `k + j`, and 0 past the file's end. -/
theorem memRead_imageFrom (bytes : List Byte) :
    ∀ k j : Nat, memRead (imageFrom k bytes) (k + j) = bytes.getD j 0 := by
  induction bytes with
  | nil => intros; rfl
  | cons b bs ih =>
    intro k j
    rw [imageFrom]
    cases j with
    | zero =>
      split
      · next hb => rw [hb]; exact memRead_imageFrom_below bs (Nat.lt_succ_self k)
      · exact if_pos rfl
    | succ j =>
      have hrest : memRead (imageFrom (k + 1) bs) (k + (j + 1)) = bs.getD j 0 := by
        rw [← ih (k + 1) j]; congr 1; omega
      split
      · exact hrest
      · rw [memRead, if_neg (by omega)]; exact hrest

/-- A loaded file reads as its first 65536 bytes, and 0 elsewhere (R123). -/
theorem memRead_normalizeFile (bytes : List Byte) (k : Nat) :
    memRead (normalizeFile bytes) k = (bytes.take imageSize).getD k 0 := by
  simpa [normalizeFile] using memRead_imageFrom (bytes.take imageSize) 0 k

theorem imageFile_length (m : Memory) : (imageFile m).length = imageSize := by
  simp only [imageFile, List.length_map, List.length_range]

theorem imageFile_getD (m : Memory) {k : Nat} (hk : k < imageSize) : (imageFile m).getD k 0 = memRead m k := by
  rw [List.getD_eq_getElem _ _ (by rwa [imageFile_length])]
  simp only [imageFile, List.getElem_map, List.getElem_range]

/-- Loading the file of a canonical image gives the image back (R55): the two canonical images read alike, byte by byte
inside the image and as 0 outside it. -/
theorem normalizeFile_imageFile {m : Memory} (h : Memory.wf m = true) : normalizeFile (imageFile m) = m := by
  have hall : (imageFile m).take imageSize = imageFile m := List.take_of_length_le (le_of_eq (imageFile_length m))
  refine memory_ext (lo := 0) (normalizeFile_wf (imageFile m)) h fun a => ?_
  rw [memRead_normalizeFile, hall]
  rcases Nat.lt_or_ge a imageSize with ha | ha
  · exact imageFile_getD m ha
  · rw [memRead_above h ha, List.getD_eq_default _ _ (by rwa [imageFile_length])]

/-- The file of a loaded image is the file loaded, zero-padded or truncated (R123). -/
theorem imageFile_normalizeFile (bytes : List Byte) :
    imageFile (normalizeFile bytes) = bytes.take imageSize ++ List.replicate (imageSize - bytes.length) 0 := by
  refine List.ext_getElem ?_ fun k hk _ => ?_
  · rw [imageFile_length, List.length_append, List.length_take, List.length_replicate]; omega
  · simp only [imageFile, List.getElem_map, List.getElem_range, memRead_normalizeFile]
    rw [List.getElem_append]
    split
    · next hlt => exact List.getD_eq_getElem _ _ hlt
    · next hge => rw [List.getElem_replicate]; exact List.getD_eq_default _ _ (Nat.le_of_not_lt hge)

/-! ### A load and a sync -/

/-- A `LOAD` that completes leaves the image of its file, and its path (R122). -/
theorem exec_load_image_path {p : Path} {bytes : List Byte} {s t : State} (hf : s.draw.fileRead = some bytes)
    (h : exec (.load p) s = .next t) : t.img = normalizeFile bytes ∧ t.path = some p := by
  simp only [exec, execLoad, hf, loadBytes_eq] at h
  obtain ⟨-, h⟩ := requireThat_eq_next.mp h
  injection h with h
  exact h ▸ ⟨rfl, rfl⟩

/-- Under the table of R100 a `WR 0` stores, then runs the data-register write of the mode (R76, R89). -/
theorem exec_wr_zero {s : State} {m : Mode} (hs : diskMode s = some m) (v : Byte) :
    exec (.wr 0 v) s = dataHandler m v (storeReg 0 v s) := by
  obtain ⟨-, hd0, -, -, -, hm⟩ := diskMode_eq_some.mp hs
  have hrun : exec (.wr 0 v) s = runWrite s.wdest0 v (storeReg 0 v s) := rfl
  rw [hrun, hd0, ← hm, ← storeReg_mode 0 v s]
  rfl

/-- The sync command with a backing file, answered with success, writes the image to it (R114, R121). -/
theorem diskCommand_sync {s : State} {p : Path} (hp : s.path = some p) (hw : s.draw.fileWriteOk = true) :
    diskCommand syncCode s =
      .next { s with fileRequests := s.fileRequests ++ [.write p s.img], ready := !s.dead } := by
  rw [diskCommand_eq, if_pos rfl]
  simp only [hp, hw, if_true]

/-! ### The step of an admitted operation -/

/-- A request whose word decodes to an operation of its presenter's role is admitted (R163). -/
theorem admitRequest_of_decodeIn {r : Request} {s : State} {w : Word} {i : Instr} (hw : wordOfForm r.form = .ok w)
    (hi : decodeIn (diskMode s) w r.path = .ok i) (hr : roleOf i = r.role) : admitRequest r s = .ok i := by
  simp only [admitRequest, hw, hi, if_pos hr]

/-- The head of the pending operations, once admitted, is what the block performs (R45, R49). -/
theorem step_of_admitRequest {s : State} {r : Request} {rest : List Request} {i : Instr} (hf : s.faultRecord = none)
    (hp : s.pending = r :: rest) (hi : admitRequest r s = .ok i) :
    step s = exec i { s with pending := rest, draw := r.draw, reply := none } := by
  have hfetch : fetch s = .run i { s with pending := rest, draw := r.draw, reply := none } := by
    simp only [fetch, hf, hp, hi]
  simp only [step, hfetch]

end Sys2Proof.Machine

open Sys2Proof Sys2Proof.Machine

/-- Settles O39: the file lists the image byte by byte, and two canonical images that read alike are one. -/
theorem fileOfImageLoadsBack : Obligations.FileOfImageLoadsBack :=
  fun m hm => ⟨imageFile_length m, fun _ hk => imageFile_getD m hk, normalizeFile_imageFile hm⟩

/-- Settles O40: the sync runs on the state its `WR 0` has stored in, which holds the load's image and path. -/
theorem loadThenSyncReproducesFile : Obligations.LoadThenSyncReproducesFile := by
  intro s t u p bytes _ hfile hload hmode himg hpath hwrite
  obtain ⟨htimg, htpath⟩ := exec_load_image_path hfile hload
  have hstored : (storeReg 0 syncCode u).path = some p := by rw [storeReg_path, hpath, htpath]
  have hdraw : (storeReg 0 syncCode u).draw.fileWriteOk = true := by rw [storeReg_eq]; exact hwrite
  refine ⟨_, (exec_wr_zero hmode _).trans (diskCommand_sync hstored hdraw), ?_, imageFile_normalizeFile bytes⟩
  simp only [storeReg_fileRequests, storeReg_img, himg, htimg]

/-- Settles O6: the word decodes to an admitted operation, which the step hands to `exec`. -/
theorem stepRunsDecodedOperation : Obligations.StepRunsDecodedOperation :=
  fun _ _ _ _ _ hfault hpending hword hdecode hrole =>
    step_of_admitRequest hfault hpending (admitRequest_of_decodeIn hword hdecode hrole)

end

section
/-! Decoding and encoding are two layers each: the word and the operation of R62 and R71 it spells, then the row of R76
that the mode selects for it. Both round trips go through the operation a row is a form of. -/

namespace Sys2Proof

/-! ### The word layer -/

/-- The operation of R62 or R71 that a row of R76 is a form of; every other operation is its own. -/
def busForm : Instr → Instr
  | .selData => .wr 1 0x00
  | .selSeek => .wr 1 0x0A
  | .selByteN => .wr 1 0x0B
  | .selSectorN => .wr 1 0x0C
  | .selCtrl => .wr 1 0x0F
  | .selInvalid code => .wr 1 code
  | .wr0Data val | .wr0Seek val | .wr0ByteN val | .wr0SectorN val | .wr0Ctrl val => .wr 0 val
  | .rd0Data | .rd0NotData => .rd 0
  | .rd1 => .rd 1
  | i => i

/-- A row is encoded as the operation it is a form of (R76). -/
theorem encode_busForm (i : Instr) : encode (busForm i) = encode i := by
  cases i <;> rfl

theorem mkWord_of_fields {w : Word} {op idx : Nibble} {val : Byte} (ho : (opField w).toNat = op.toNat)
    (hi : idxField w = idx) (hv : valField w = val) : mkWord op idx val = w := by
  rw [← BitVec.eq_of_toNat_eq ho, ← hi, ← hv, mkWord_fields]

theorem decodeBare_eq_ok {idx : Nibble} {val : Byte} {i j : Instr} :
    decodeBare idx val i = .ok j ↔ idx = 0 ∧ val = 0 ∧ i = j := by
  unfold decodeBare
  split <;> simp_all

theorem decodeNoVal_eq_ok {val : Byte} {i j : Instr} : decodeNoVal val i = .ok j ↔ val = 0 ∧ i = j := by
  unfold decodeNoVal
  split <;> simp_all

theorem destOfId_eq_some {val : Byte} {d : Dest} : destOfId val = some d ↔ val = destId d := by
  unfold destOfId
  cases d <;> simp only [destId] <;> split_ifs <;> simp_all

theorem decodeBind_eq_ok {val : Byte} {f : Dest → Instr} {j : Instr} :
    decodeBind val f = .ok j ↔ ∃ d, val = destId d ∧ f d = j := by
  unfold decodeBind
  split <;> simp_all [← destOfId_eq_some]

/-- What a word spells: an operation of R62 or R71, with the word as its encoding, operands in their ranges, and the
path that travels beside the word as the `LOAD` operand (R60, R61). -/
structure Spells (w : Word) (p : Path) (i : Instr) : Prop where
  word : encode i = w
  wellFormed : i.wellFormed = true
  bus : busForm i = i
  path : ∀ q, i = .load q → q = p

theorem decodeHost_spells {w : Word} {p : Path} {i : Instr} (ho : (opField w).toNat = 0xF)
    (h : decodeHost (idxField w) (valField w) p = .ok i) : Spells w p i := by
  unfold decodeHost at h
  split_ifs at h with hload hpwr hivl hk htick
  · obtain ⟨hv, rfl⟩ := decodeNoVal_eq_ok.mp h
    exact ⟨mkWord_of_fields ho hload hv, rfl, rfl, fun q hq => by injection hq with hq; exact hq.symm⟩
  · obtain ⟨hv, rfl⟩ := decodeNoVal_eq_ok.mp h
    exact ⟨mkWord_of_fields ho hpwr hv, rfl, rfl, nofun⟩
  · injection h with h
    subst h
    exact ⟨mkWord_of_fields ho hivl rfl, decide_eq_true hk, rfl, nofun⟩
  · obtain ⟨hv, rfl⟩ := decodeNoVal_eq_ok.mp h
    exact ⟨mkWord_of_fields ho htick hv, rfl, rfl, nofun⟩

/-- The decoder of R61 to R75 gives the operation the word spells. -/
theorem decode_spells {w : Word} {p : Path} {i : Instr} (h : decode w p = .ok i) : Spells w p i := by
  unfold decode at h
  split at h
  case h_1 ho => injection h with h; subst h; exact ⟨mkWord_of_fields ho rfl rfl, rfl, rfl, nofun⟩
  case h_2 ho =>
    obtain ⟨hv, rfl⟩ := decodeNoVal_eq_ok.mp h
    exact ⟨mkWord_of_fields ho rfl hv, rfl, rfl, nofun⟩
  case h_6 ho | h_7 ho =>
    obtain ⟨d, hv, rfl⟩ := decodeBind_eq_ok.mp h
    exact ⟨mkWord_of_fields ho rfl hv, rfl, rfl, nofun⟩
  case h_8 ho =>
    split at h
    · next hi => injection h with h; subst h; exact ⟨mkWord_of_fields ho hi rfl, rfl, rfl, nofun⟩
    · cases h
  case h_14 ho => exact decodeHost_spells ho h
  case h_15 => cases h
  all_goals
    next ho =>
    obtain ⟨hi, hv, rfl⟩ := decodeBare_eq_ok.mp h
    exact ⟨mkWord_of_fields ho hi hv, rfl, rfl, nofun⟩

/-- The word of a well-formed operation decodes to the operation it is a form of. -/
theorem decode_encode {i : Instr} {p : Path} (hwf : i.wellFormed = true) (hp : ∀ q, i = .load q → q = p) :
    decode (encode i) p = .ok (busForm i) := by
  cases i
  case bindw idx d | bindr idx d => cases d <;> simp [decode, encode, busForm, decodeBind, destOfId, destId]
  case load q => simp [decode, encode, busForm, decodeHost, decodeNoVal, hp q rfl]
  case ivl k =>
    have hk : k.toNat < 4 := of_decide_eq_true hwf
    simp [decode, encode, busForm, decodeHost, hk]
  all_goals simp [decode, encode, busForm, decodeBare, decodeNoVal, decodeHost]

/-! ### The row layer -/

theorem resolveMode_eq_some {code : Byte} {m : Mode} : resolveMode code = some m ↔ code = modeCode m := by
  unfold resolveMode
  cases m <;> simp only [modeCode] <;> split_ifs <;> simp_all

theorem resolveMode_eq_none {code : Byte} : resolveMode code = none ↔ isModeCode code = false := by
  unfold resolveMode isModeCode
  split_ifs <;> simp_all

/-- The row `i` that an operation `j` of R62 or R71 is under `disk` (R76): one of the DISK rows for a `WR` or `RD` of
register 0 or 1, and `j` itself otherwise. -/
inductive RowOf (disk : Option Mode) (j : Instr) : Instr → Prop where
  | own (h : busForm j = j → rowApplies disk j = true) : RowOf disk j j
  | data (m : Mode) (v : Byte) (hd : disk = some m) (hj : j = .wr 0 v) : RowOf disk j (selectData0 m v)
  | select (m : Mode) (v : Byte) (hd : disk = some m) (hj : j = .wr 1 v) : RowOf disk j (selectMode1 v)
  | read (m : Mode) (hd : disk = some m) (hj : j = .rd 0) : RowOf disk j (selectRead0 m)
  | readMode (m : Mode) (hd : disk = some m) (hj : j = .rd 1) : RowOf disk j .rd1

/-- A register index that is neither 0 nor 1 is 2 or more. -/
theorem two_le_of_nibble {idx : Nibble} (h0 : idx ≠ 0) (h1 : idx ≠ 1) : 2 ≤ idx.toNat := by
  revert idx
  decide

theorem selectRow_rowOf (disk : Option Mode) (j : Instr) : RowOf disk j (selectRow disk j) := by
  cases disk with
  | none => exact .own (by cases j <;> simp [busForm, rowApplies])
  | some m =>
    cases j
    case wr idx v =>
      simp only [selectRow]
      split_ifs with h0 h1
      · exact .data m v rfl (by rw [h0])
      · exact .select m v rfl (by rw [h1])
      · exact .own fun _ => by simp [rowApplies, two_le_of_nibble h0 h1]
    case rd idx =>
      simp only [selectRow]
      split_ifs with h0 h1
      · exact .read m rfl (by rw [h0])
      · exact .readMode m rfl (by rw [h1])
      · exact .own fun _ => by simp [rowApplies, two_le_of_nibble h0 h1]
    all_goals exact .own (by simp [busForm, rowApplies])

/-- The row an operation of R62 or R71 is under `disk` applies there. -/
theorem RowOf.applies {disk : Option Mode} {i j : Instr} (h : RowOf disk j i) (hj : busForm j = j) :
    rowApplies disk i = true := by
  cases h with
  | own h => exact h hj
  | data m _ hd => subst hd; cases m <;> rfl
  | select _ v hd => subst hd; unfold selectMode1; split <;> rfl
  | read m hd => subst hd; cases m <;> rfl
  | readMode _ hd => subst hd; rfl

/-- A row is as well formed as the operation it is a form of (R66). -/
theorem RowOf.wellFormed {disk : Option Mode} {i j : Instr} (h : RowOf disk j i) (hj : j.wellFormed = true) :
    i.wellFormed = true := by
  cases h with
  | own => exact hj
  | data m => cases m <;> rfl
  | select _ v =>
    unfold selectMode1
    split
    case h_6 hv => exact congrArg not (resolveMode_eq_none.mp hv)
    all_goals rfl
  | read m => cases m <;> rfl
  | readMode => rfl

theorem busForm_selectMode1 (v : Byte) : busForm (selectMode1 v) = .wr 1 v := by
  unfold selectMode1
  split
  case h_6 => rfl
  all_goals next hv => rw [resolveMode_eq_some.mp hv]; rfl

theorem RowOf.busForm_eq {disk : Option Mode} {i j : Instr} (h : RowOf disk j i) : busForm i = busForm j := by
  cases h with
  | own => rfl
  | data m _ _ hj => subst hj; cases m <;> rfl
  | select _ v _ hj => subst hj; exact busForm_selectMode1 v
  | read m _ hj => subst hj; cases m <;> rfl
  | readMode _ _ hj => subst hj; rfl

/-- Where a well-formed row applies, the operation it is a form of is that row (R76). -/
theorem selectRow_busForm {disk : Option Mode} {i : Instr} (hwf : i.wellFormed = true)
    (happ : rowApplies disk i = true) : selectRow disk (busForm i) = i := by
  cases disk with
  | none => cases i <;> simp_all [busForm, rowApplies, selectRow]
  | some m =>
    cases i
    case wr idx v | rd idx =>
      have hidx : 2 ≤ idx.toNat := of_decide_eq_true happ
      have h0 : idx ≠ 0 := by rintro rfl; simp at hidx
      have h1 : idx ≠ 1 := by rintro rfl; simp at hidx
      exact (if_neg h0).trans (if_neg h1)
    case selInvalid code =>
      have hcode : resolveMode code = none := resolveMode_eq_none.mpr (by simpa [Instr.wellFormed] using hwf)
      simp [busForm, selectRow, selectMode1, hcode]
    case rd0NotData => cases m <;> simp_all [busForm, rowApplies, selectRow, selectRead0]
    case wr0Data | wr0Seek | wr0ByteN | wr0SectorN | wr0Ctrl | rd0Data =>
      cases m <;> simp_all [busForm, rowApplies, selectRow, selectData0, selectRead0]
    all_goals rfl

/-! ### Both layers -/

theorem decodeIn_eq_ok {disk : Option Mode} {w : Word} {p : Path} {i : Instr} :
    decodeIn disk w p = .ok i ↔ ∃ j, decode w p = .ok j ∧ selectRow disk j = i := by
  unfold decodeIn
  split <;> simp_all

/-- The word of a well-formed operation decodes to it where its row applies, with any path beside it but for `LOAD`. -/
theorem decodeIn_encode {disk : Option Mode} {i : Instr} {p : Path} (hwf : i.wellFormed = true)
    (happ : rowApplies disk i = true) (hp : ∀ q, i = .load q → q = p) : decodeIn disk (encode i) p = .ok i :=
  decodeIn_eq_ok.mpr ⟨busForm i, decode_encode hwf hp, selectRow_busForm hwf happ⟩

/-! ### The reserved words -/

theorem exists_decodeBare_error {idx : Nibble} {val : Byte} {i : Instr} :
    (∃ e, decodeBare idx val i = .error e) ↔ idx.toNat ≠ 0 ∨ val.toNat ≠ 0 := by
  unfold decodeBare
  split <;> simp_all [← BitVec.toNat_inj]
  omega

theorem exists_decodeNoVal_error {val : Byte} {i : Instr} :
    (∃ e, decodeNoVal val i = .error e) ↔ val.toNat ≠ 0 := by
  unfold decodeNoVal
  split <;> simp_all [← BitVec.toNat_inj]

theorem exists_decodeBind_error {val : Byte} {f : Dest → Instr} :
    (∃ e, decodeBind val f = .error e) ↔ val.toNat = 0 ∨ 4 ≤ val.toNat := by
  unfold decodeBind destOfId
  simp only [← BitVec.toNat_inj]
  split_ifs <;> simp_all
  omega

theorem exists_decodeHost_error {idx : Nibble} {val : Byte} {p : Path} :
    (∃ e, decodeHost idx val p = .error e) ↔
      4 ≤ idx.toNat ∨ (idx.toNat = 2 ∧ 4 ≤ val.toNat) ∨ (idx.toNat ≠ 2 ∧ val.toNat ≠ 0) := by
  unfold decodeHost
  simp only [← BitVec.toNat_inj]
  split_ifs <;> simp_all [exists_decodeNoVal_error]
  omega

/-- R74: the decoder refuses exactly the reserved words. -/
theorem exists_decode_error {w : Word} {p : Path} :
    (∃ e, decode w p = .error e) ↔ Machine.reservedWord w = true := by
  have hop : (opField w).toNat < 16 := (opField w).isLt
  unfold decode
  split
  case h_8 ho => split <;> simp_all [Machine.reservedWord, ← BitVec.toNat_inj]
  case h_15 =>
    have hres : (opField w).toNat = 0x0 ∨ (opField w).toNat = 0xE := by simp only [imp_false] at *; omega
    rcases hres with ho | ho <;> simp [Machine.reservedWord, ho]
  all_goals
    next ho =>
    simp [Machine.reservedWord, ho, exists_decodeBare_error, exists_decodeNoVal_error, exists_decodeBind_error,
      exists_decodeHost_error, or_assoc]

theorem exists_decodeIn_error {disk : Option Mode} {w : Word} {p : Path} :
    (∃ e, decodeIn disk w p = .error e) ↔ Machine.reservedWord w = true := by
  rw [← exists_decode_error (p := p)]
  unfold decodeIn
  split <;> simp_all

end Sys2Proof

namespace Sys2Proof.Machine

/-! ### The step of an operation that is not admitted -/

/-- The head of the pending operations, not admitted, is refused (R157). -/
theorem step_of_admitRequest_error {s : State} {r : Request} {rest : List Request} {e : Refusal}
    (hf : s.faultRecord = none) (hp : s.pending = r :: rest) (he : admitRequest r s = .error e) :
    step s = .refused e := by
  have hfetch : fetch s = .turnedAway e := by simp only [fetch, hf, hp, he]
  simp only [step, hfetch]

/-- A form that is no word is not admitted (R64, D30). -/
theorem admitRequest_of_wordOfForm_error {r : Request} {s : State} {e : Refusal} (he : wordOfForm r.form = .error e) :
    admitRequest r s = .error e := by
  simp only [admitRequest, he]

/-- A word that spells no operation is not admitted (R74). -/
theorem admitRequest_of_decodeIn_error {r : Request} {s : State} {w : Word} {e : Reject}
    (hw : wordOfForm r.form = .ok w) (he : decodeIn (diskMode s) w r.path = .error e) :
    admitRequest r s = .error (.rf2 e) := by
  simp only [admitRequest, hw, he]

/-- Integers that fit the fields of a word are that word (R64). -/
theorem wordOfFields_of_fits {op : Nibble} {idx val : Nat}
    (h : ¬ (15 < idx ∨ 255 < val ∨ (op = 0xF ∧ idx = 2 ∧ 3 < val))) :
    wordOfFields op idx val = .ok (mkWord op (BitVec.ofNat 4 idx) (BitVec.ofNat 8 val)) := by
  simp only [not_or] at h
  obtain ⟨hidx, hval, hivl⟩ := h
  exact (if_neg (by omega)).trans (if_neg hivl)

/-- Integers that do not fit are RF1 (R64, R157). -/
theorem wordOfFields_of_wide {op : Nibble} {idx val : Nat}
    (h : 15 < idx ∨ 255 < val ∨ (op = 0xF ∧ idx = 2 ∧ 3 < val)) :
    wordOfFields op idx val = .error .rf1 := by
  unfold wordOfFields
  split
  · rfl
  · exact if_pos ((h.resolve_left (by omega)).resolve_left (by omega))

/-! ### An index that no register has -/

/-- A binding that CFG2 rejects is refused, by CFG1 first where construction is over (R82). -/
theorem requireThat_rf5_rf3 {b c : Bool} {k : Out} (hc : c = false) :
    requireThat b .rf5 (requireThat c .rf3 k) = .refused .rf3 ∨
    requireThat b .rf5 (requireThat c .rf3 k) = .refused .rf5 := by
  subst hc
  cases b with
  | false => exact .inr rfl
  | true => exact .inl rfl

/-! ### The rows and the register dispatch -/

/-- Under the table of R100 a `WR 1` stores, then runs the mode select (R89, R102). -/
theorem exec_wr_one {s : State} {m : Mode} (hs : diskMode s = some m) (v : Byte) :
    exec (.wr 1 v) s = diskModeSelect v (storeReg 1 v s) := by
  obtain ⟨-, -, hd1, -⟩ := diskMode_eq_some.mp hs
  have hrun : exec (.wr 1 v) s = runWrite s.wdest1 v (storeReg 1 v s) := rfl
  rw [hrun, hd1]
  rfl

theorem exec_selectData0 (m : Mode) (v : Byte) (s : State) :
    exec (selectData0 m v) s = dataHandler m v (storeReg 0 v s) := by
  cases m <;> rfl

theorem exec_selectMode1 (v : Byte) (s : State) :
    exec (selectMode1 v) s = diskModeSelect v (storeReg 1 v s) := by
  unfold selectMode1
  split
  case h_6 => rfl
  all_goals next hv => rw [resolveMode_eq_some.mp hv]; rfl

/-- A register read looks at its destination only from the state it has begun in (R90). -/
theorem readThrough_congr {j : Nat} {d d' : State → Out} {s : State} (h : d (performed s) = d' (performed s)) :
    readThrough j d s = readThrough j d' s := by
  simp only [readThrough, h]

/-- Under the table of R100 a `RD 0` runs the row of the mode (R76, R90). -/
theorem exec_selectRead0 {s : State} {m : Mode} (hs : diskMode s = some m) :
    exec (selectRead0 m) s = exec (.rd 0) s := by
  obtain ⟨-, -, -, hd0, -, hm⟩ := diskMode_eq_some.mp hs
  have hrun : exec (.rd 0) s = readThrough 0 (runRead s.rdest0) s := rfl
  rw [hrun, hd0]
  cases m <;> exact readThrough_congr (by simp [runRead, diskDataRead, hm])

/-- Under the table of R100 a `RD 1` has no destination (R90, R117). -/
theorem exec_rd1 {s : State} {m : Mode} (hs : diskMode s = some m) : exec .rd1 s = exec (.rd 1) s := by
  obtain ⟨-, -, -, -, hd1, -⟩ := diskMode_eq_some.mp hs
  have hrun : exec (.rd 1) s = readThrough 1 (runRead s.rdest1) s := rfl
  rw [hrun, hd1]
  rfl

/-- Each row runs the one handler that the dispatch of its operation finds bound and in the mode (R76, R89, R90). -/
theorem exec_of_rowOf {s : State} {i row : Instr} (h : RowOf (diskMode s) i row) :
    exec row s = exec i s := by
  cases h with
  | own => rfl
  | data m v hs hi => rw [hi, exec_selectData0, exec_wr_zero hs]
  | select m v hs hi => rw [hi, exec_selectMode1, exec_wr_one hs]
  | read m hs hi => rw [hi, exec_selectRead0 hs]
  | readMode m hs hi => rw [hi, exec_rd1 hs]

end Sys2Proof.Machine

open Sys2Proof Sys2Proof.Machine

/-- Settles O1: the word decodes to the operation the row is a form of, and where the row applies that is the row. -/
theorem decodeOfEncode : Obligations.DecodeOfEncode :=
  fun _ i hwf happ => decodeIn_encode hwf happ fun q hq => by rw [hq]; rfl

/-- Settles O2: a word spells one operation of R62 or R71, and its row has the same form, hence the same word. -/
theorem encodeOfDecode : Obligations.EncodeOfDecode := by
  intro disk w p i h
  obtain ⟨j, hj, rfl⟩ := decodeIn_eq_ok.mp h
  have spelled := decode_spells hj
  have row := selectRow_rowOf disk j
  refine ⟨?_, row.wellFormed spelled.wellFormed, row.applies spelled.bus, fun q hq => spelled.path q ?_⟩
  · rw [← encode_busForm, row.busForm_eq, encode_busForm, spelled.word]
  · rw [← spelled.bus, ← row.busForm_eq, hq]; rfl

/-- Settles O3: the port decodes the word before it looks at anything else, so a reserved one is RF2. -/
theorem reservedWordsRefused : Obligations.ReservedWordsRefused := by
  refine fun disk w p => ⟨exists_decodeIn_error, fun s r rest hres hf hp hw => ?_⟩
  obtain ⟨e, he⟩ := (exists_decodeIn_error (disk := diskMode s) (p := r.path)).mpr hres
  have hform : wordOfForm r.form = .ok w := by rw [hw]; rfl
  exact ⟨e, step_of_admitRequest_error hf hp (admitRequest_of_decodeIn_error hform he)⟩

/-- Settles O5: no row of R76 claims such an index, and MF2 and CFG2 are checked before anything is read. -/
theorem highIndexDecodesThenFaults : Obligations.HighIndexDecodesThenFaults := by
  intro disk idx v d p s hidx
  have hwr : rowApplies disk (.wr idx v) = true := by simp [rowApplies, hidx]
  have hrd : rowApplies disk (.rd idx) = true := by simp [rowApplies, hidx]
  have hcfg2 : decide (idx.toNat < numRegs) = false := decide_eq_false (Nat.not_lt.mpr hidx)
  exact ⟨decodeIn_encode (i := .wr idx v) rfl hwr nofun, if_pos hidx,
    decodeIn_encode (i := .rd idx) rfl hrd nofun, if_pos hidx,
    requireThat_rf5_rf3 hcfg2, requireThat_rf5_rf3 hcfg2⟩

/-- Settles O8: the port brings a form to a word before it decodes, and only integers that fit become one. -/
theorem wideOperandsRefused : Obligations.WideOperandsRefused := by
  intro s r rest hf hp
  refine ⟨fun op idx val hform => ⟨fun hwide => ?_, fun hfits => ?_⟩, fun bs hform => ?_⟩
  · exact step_of_admitRequest_error hf hp
      (admitRequest_of_wordOfForm_error (by rw [hform]; exact wordOfFields_of_wide hwide))
  · refine ⟨_, by rw [hform]; exact wordOfFields_of_fits hfits, opField_mkWord .., ?_, ?_⟩
    · rw [idxField_mkWord, BitVec.toNat_ofNat]; omega
    · rw [valField_mkWord, BitVec.toNat_ofNat]; omega
  · exact step_of_admitRequest_error hf hp (admitRequest_of_wordOfForm_error (by rw [hform]; rfl))

/-- Settles O19: a row is the one its operation is under the block's mode. -/
theorem rowsRefineDispatch : Obligations.RowsRefineDispatch :=
  fun s i => exec_of_rowOf (selectRow_rowOf (diskMode s) i)

end

section
/-! The sequences of R78 on a DISK block: each selects a mode, which keeps the cursor and the image, and then writes the
data register in it. -/

namespace Sys2Proof.Machine

/-! ### Arithmetic on the cursor (R8, R42) -/

/-- The low byte of a cursor is the one last written to it (R112). -/
theorem withCursorByte_mod (pos : Nat) (v : Byte) : withCursorByte pos v % 256 = v.toNat := by
  have hmask : (pos &&& 0xFF00) % 2 ^ 8 = 0 := by rw [Nat.and_mod_two_pow]; exact Nat.and_zero _
  have hor := Nat.or_mod_two_pow (a := pos &&& 0xFF00) (b := v.toNat) (n := 8)
  rw [hmask, Nat.zero_or, Nat.mod_eq_of_lt v.isLt] at hor
  exact hor

/-- The high byte is set over the low byte kept (R113). -/
theorem withCursorSector_eq (pos : Nat) (v : Byte) : withCursorSector pos v = pos % 256 + v.toNat * 256 := by
  have hlow : pos &&& 0x00FF = pos % 2 ^ 8 := Nat.and_two_pow_sub_one_eq_mod pos 8
  rw [withCursorSector, hlow, Nat.or_comm, ← Nat.shiftLeft_add_eq_or_of_lt (Nat.mod_lt _ (by decide)),
    Nat.shiftLeft_eq, Nat.add_comm]

/-- The two bytes of a position, written low then high, are the cursor (R78). -/
theorem withCursorSector_withCursorByte {p : Nat} (hp : p ≤ 65535) (pos : Nat) :
    withCursorSector (withCursorByte pos (BitVec.ofNat 8 p)) (BitVec.ofNat 8 (p >>> 8)) = p := by
  rw [withCursorSector_eq, withCursorByte_mod, BitVec.toNat_ofNat, BitVec.toNat_ofNat, Nat.shiftRight_eq_div_pow]
  omega

/-- An offset of R78 is the signed value of its byte (R67). -/
theorem sext8_ofInt {o : Int} (ho : pseudoInRange (.seek o) = true) : sext8 (BitVec.ofInt 8 o) = o := by
  obtain ⟨hlo, hhi⟩ : -128 ≤ o ∧ o ≤ 127 := by simpa [pseudoInRange] using ho
  simp only [sext8, BitVec.toNat_ofInt]
  split <;> omega

/-! ### A mode select and a data-register write -/

/-- Under the table of R100 a `WR 1` of a mode's code selects that mode, and but for the mode, the cells and ready the
state is as before (R102), where the mode has an echo at the cursor. -/
theorem exec_wr_modeCode {s : State} {m m' : Mode} {e : Byte} (hs : diskMode s = some m) (he : echo m' s = .ok e) :
    ∃ c, exec (.wr 1 (modeCode m')) s =
      .next { s with constructing := false, reg0 := c, reg1 := .holds (modeCode m'), mode := m',
                     ready := !s.dead } := by
  have hcode : resolveMode (modeCode m') = some m' := resolveMode_eq_some.mpr rfl
  rw [exec_wr_one hs, diskModeSelect, hcode, storeReg_eq]
  simp only [diskSelect_eq]
  split
  · next hm => exact ⟨s.reg0, by rw [hm]; rfl⟩
  · exact ⟨.holds e, by rw [(echo_ok_congr (s := s) (by rfl) (by rfl)).mpr he]; rfl⟩

/-- The state the data-register write of mode `m` starts in, after the select of `m` and the store of `v`. -/
def selectedAndStored (m : Mode) (v : Byte) (s : State) : State :=
  { s with constructing := false, reg0 := .holds v, reg1 := .holds (modeCode m), mode := m, ready := !s.dead }

/-- The DISK rows apply after the select and the store as before, and wherever the write then moves the cursor. -/
theorem diskMode_selectedAndStored {s : State} {m : Mode} (hs : diskMode s = some m) (m' : Mode) (v : Byte) (n : Nat) :
    diskMode { selectedAndStored m' v s with diskPos := n } = some m' := by
  obtain ⟨hcfg, hw0, hw1, hr0, hr1, -⟩ := diskMode_eq_some.mp hs
  exact diskMode_eq_some.mpr ⟨hcfg, hw0, hw1, hr0, hr1, rfl⟩

/-- A sequence that selects a mode and writes the data register runs that mode's write, where the mode has an echo at
the cursor. -/
theorem runList_select_write {s : State} {m m' : Mode} {e : Byte} (hs : diskMode s = some m) (he : echo m' s = .ok e)
    (v : Byte) (is : List Instr) :
    runList (.wr 1 (modeCode m') :: .wr 0 v :: is) s =
      andThen (dataHandler m' v (selectedAndStored m' v s)) (runList is) := by
  obtain ⟨c, hsel⟩ := exec_wr_modeCode hs he
  rw [runList, hsel, andThen_next, runList, exec_wr_zero (m := m'), storeReg_eq]
  · rfl
  · obtain ⟨hcfg, hw0, hw1, hr0, hr1, -⟩ := diskMode_eq_some.mp hs
    exact diskMode_eq_some.mpr ⟨hcfg, hw0, hw1, hr0, hr1, rfl⟩

/-! ### What the sequences leave -/

/-- SECTOR_N has an echo anywhere but at the sentinel (R107). -/
theorem echo_sectorN {s : State} (h : s.diskPos ≠ posMax) : echo .sectorN s = .ok (cursorSector s.diskPos) := if_neg h

/-- `GOTO p`: the first write sets the low byte and leaves a cursor that has a sector, the second sets the high byte. -/
theorem runList_goto {s : State} {m : Mode} {p : Nat} (hs : diskMode s = some m) (hp : p ≤ 65535) :
    runList (expandPseudo (.goto p)) s =
      .next { selectedAndStored .sectorN (BitVec.ofNat 8 (p >>> 8)) s with diskPos := p } := by
  have hbyte : runList (expandPseudo (.goto p)) s =
      runList [.wr 1 (modeCode .sectorN), .wr 0 (BitVec.ofNat 8 (p >>> 8))]
        { selectedAndStored .byteN (BitVec.ofNat 8 p) s with
          diskPos := withCursorByte s.diskPos (BitVec.ofNat 8 p) } := by
    rw [expandPseudo, runList_select_write hs rfl, dataHandler, diskSetByte_eq]
    rfl
  have hlow : withCursorByte s.diskPos (BitVec.ofNat 8 p) ≠ posMax :=
    Nat.ne_of_lt (Nat.lt_succ_of_le (withCursorByte_le ..))
  have hmode := diskMode_selectedAndStored hs .byteN (BitVec.ofNat 8 p) (withCursorByte s.diskPos (BitVec.ofNat 8 p))
  rw [hbyte, runList_select_write hmode (echo_sectorN hlow), dataHandler, diskSetSector_eq]
  exact congrArg
    (fun n => Host.Outcome.next { selectedAndStored .sectorN (BitVec.ofNat 8 (p >>> 8)) s with diskPos := n })
    (withCursorSector_withCursorByte hp s.diskPos)

/-- `SEEK o`, with the target in range. -/
theorem runList_seek {s : State} {m : Mode} {o : Int} (hs : diskMode s = some m)
    (ho : pseudoInRange (.seek o) = true) (hlo : 0 ≤ (s.diskPos : Int) + o) (hhi : (s.diskPos : Int) + o ≤ 65535) :
    runList (expandPseudo (.seek o)) s =
      .next { selectedAndStored .seek (BitVec.ofInt 8 o) s with diskPos := ((s.diskPos : Int) + o).toNat } := by
  have htarget :
      seekTarget (selectedAndStored .seek (BitVec.ofInt 8 o) s).diskPos (BitVec.ofInt 8 o) = s.diskPos + o := by
    rw [seekTarget, sext8_ofInt ho]; rfl
  rw [expandPseudo, runList_select_write hs rfl, dataHandler, diskSeek_eq, htarget, if_neg (by omega)]
  rfl

/-- `SYNC`, with a backing file that takes the write. -/
theorem runList_sync {s : State} {m : Mode} {p : Path} (hs : diskMode s = some m) (hp : s.path = some p)
    (hw : s.draw.fileWriteOk = true) : runList (expandPseudo .sync) s =
      .next { selectedAndStored .ctrl syncCode s with fileRequests := s.fileRequests ++ [.write p s.img] } := by
  rw [expandPseudo, runList_select_write hs rfl, dataHandler,
    diskCommand_sync (s := selectedAndStored .ctrl syncCode s) hp hw]
  rfl

end Sys2Proof.Machine

open Sys2Proof Sys2Proof.Machine

/-- Settles O56: the two writes replace both bytes, so nothing of the old cursor is left, and revive no device. -/
theorem gotoReachesPosition : Obligations.GotoReachesPosition :=
  fun _ _ _ hs _ hp => ⟨_, runList_goto hs hp, rfl, rfl, rfl, rfl, rfl⟩

/-- Settles O57: the modes SEEK and CTRL have an echo wherever the cursor is, and their writes do the rest. -/
theorem seekAndSyncPseudo : Obligations.SeekAndSyncPseudo :=
  fun _ _ hs =>
    ⟨fun _ ho hlo hhi => ⟨_, runList_seek hs ho hlo hhi, Int.toNat_of_nonneg hlo, rfl⟩,
      fun _ hp hw => ⟨_, runList_sync hs hp hw, rfl, rfl⟩⟩

/-- Settles O4, as the decoder computes each of the words. -/
theorem wordsOfTheSpecDecode : Obligations.WordsOfTheSpecDecode :=
  ⟨⟨rfl, rfl⟩, ⟨rfl, rfl⟩, rfl, rfl, rfl, rfl, rfl, rfl, rfl, rfl, rfl, rfl, rfl, rfl, rfl, rfl⟩

end

section
/-! The controller's own operations (40_iocontroller.md): the bindings under CFG1 to CFG4, the register transactions of an
index with no destination, the handshake bits, and what every write destination leaves of ready. -/

namespace Sys2Proof.Machine

/-! ### The checks of a binding (R82) -/

theorem requireThat_eq_refused {c : Bool} {r : Refusal} {k : Out} :
    requireThat c r k = .refused r ↔ c = false ∨ k = .refused r := by
  cases c <;> simp

theorem ownsDestinations_eq_false {s : State} : ownsDestinations s = false ↔ s.cfg.personality ≠ .disk :=
  beq_eq_false_iff_ne

theorem readDestOf_eq_none {d : Dest} : readDestOf d = none ↔ d ≠ .diskDataRead := by
  cases d <;> simp [readDestOf]

/-- During construction `BINDW` is rejected exactly by CFG2, CFG3 or CFG4 (R82). -/
theorem execBindw_eq_rf3 {s : State} (hc : s.constructing = true) (idx : Nibble) (d : Dest) :
    execBindw idx d s = .refused .rf3 ↔
      numRegs ≤ idx.toNat ∨ wdest idx.toNat s ≠ none ∨ s.cfg.personality ≠ .disk ∨ writeDestOf d = none := by
  rw [execBindw, hc, requireThat_true, requireThat_eq_refused, requireThat_eq_refused, requireThat_eq_refused]
  refine or_congr (decide_eq_false_iff_not.trans Nat.not_lt)
    (or_congr (Option.isNone_eq_false_iff.trans Option.isSome_iff_ne_none) (or_congr ownsDestinations_eq_false ?_))
  cases writeDestOf d <;> simp

/-- During construction `BINDR` is rejected exactly by CFG2, CFG3 or CFG4 (R82). -/
theorem execBindr_eq_rf3 {s : State} (hc : s.constructing = true) (idx : Nibble) (d : Dest) :
    execBindr idx d s = .refused .rf3 ↔
      numRegs ≤ idx.toNat ∨ rdest idx.toNat s ≠ none ∨ s.cfg.personality ≠ .disk ∨ readDestOf d = none := by
  rw [execBindr, hc, requireThat_true, requireThat_eq_refused, requireThat_eq_refused, requireThat_eq_refused]
  refine or_congr (decide_eq_false_iff_not.trans Nat.not_lt)
    (or_congr (Option.isNone_eq_false_iff.trans Option.isSome_iff_ne_none) (or_congr ownsDestinations_eq_false ?_))
  cases readDestOf d <;> simp

/-- An admitted `BINDW` sets the destination of its index (R80). -/
theorem execBindw_admitted {s : State} {idx : Nibble} {d : Dest} {e : WriteDest} (hc : s.constructing = true)
    (hp : s.cfg.personality = .disk) (hidx : idx.toNat < numRegs) (hfree : wdest idx.toNat s = none)
    (he : writeDestOf d = some e) : execBindw idx d s =
      .next (if idx.toNat = 0 then { s with wdest0 := some e } else { s with wdest1 := some e }) := by
  simp [execBindw, ownsDestinations, hc, hp, hidx, hfree, he]

/-- An admitted `BINDR` sets the destination of its index (R81). -/
theorem execBindr_admitted {s : State} {idx : Nibble} {d : Dest} {e : ReadDest} (hc : s.constructing = true)
    (hp : s.cfg.personality = .disk) (hidx : idx.toNat < numRegs) (hfree : rdest idx.toNat s = none)
    (he : readDestOf d = some e) : execBindr idx d s =
      .next (if idx.toNat = 0 then { s with rdest0 := some e } else { s with rdest1 := some e }) := by
  simp [execBindr, ownsDestinations, hc, hp, hidx, hfree, he]

/-! ### The cells (R9) -/

theorem readReg_unwritten {i : Nat} {s : State} (h : regCell i s = .unwritten) : readReg i s = .error (.mf1 i s) := by
  simp only [readReg, h]

/-! ### An index with no destination (R140) -/

theorem exec_wr_unbound {s : State} {idx : Nibble} (hidx : idx.toNat < numRegs) (hd : wdest idx.toNat s = none)
    (v : Byte) : exec (.wr idx v) s = .next (storeReg idx.toNat v s) := by
  simp only [exec, execWr, if_neg (Nat.not_le_of_lt hidx), hd, runWrite]

/-- With no destination there is nothing for `READ_SAMPLE` to order the sample by (R90). -/
theorem exec_rd_unbound {s : State} {idx : Nibble} (hidx : idx.toNat < numRegs) (hd : rdest idx.toNat s = none) :
    exec (.rd idx) s =
      withValue (readReg idx.toNat (performed s)) fun r => .next (returning (.byte r) (performed s)) := by
  simp only [exec, execRd, if_neg (Nat.not_le_of_lt hidx), hd, readThrough, runRead, andThen_next]
  split <;> rfl

theorem exec_rd_unbound_holds {s : State} {idx : Nibble} {v : Byte} (hidx : idx.toNat < numRegs)
    (hd : rdest idx.toNat s = none) (hv : regCell idx.toNat s = .holds v) :
    exec (.rd idx) s = .next (returning (.byte v) (performed s)) := by
  rw [exec_rd_unbound hidx hd, (readReg_eq_ok (s := performed s)).mpr hv, withValue_ok]

theorem exec_rd_unbound_unwritten {s : State} {idx : Nibble} (hidx : idx.toNat < numRegs)
    (hd : rdest idx.toNat s = none) (hv : regCell idx.toNat s = .unwritten) :
    exec (.rd idx) s = .fault (.mf1 idx.toNat (performed s)) := by
  rw [exec_rd_unbound hidx hd, readReg_unwritten (s := performed s) hv, withValue_error]

/-! ### Ready after a write destination (R94) -/

/-- The data-register write raises ready on every path but that of `die` (R110 to R114). -/
theorem DataEffect.ready_eq {m : Mode} {v : Byte} {s t : State} (h : DataEffect m v s t) : t.ready = !t.dead := by
  cases h <;> rfl

/-- The mode select raises ready on every path but that of `die` (R102, R109). -/
theorem diskModeSelect_ready {v : Byte} {s t : State} (h : diskModeSelect v s = .next t) : t.ready = !t.dead := by
  unfold diskModeSelect at h
  split at h
  · rw [diskSelectInvalid_eq] at h; injection h with h; subst h; rfl
  · rcases diskSelect_next h with ⟨-, rfl⟩ | ⟨-, e, -, rfl⟩ <;> rfl

end Sys2Proof.Machine

open Sys2Proof Sys2Proof.Machine

/-- Settles O14: CFG1 is checked first, then any of CFG2 to CFG4 is RF3, and what passes all four is bound. -/
theorem bindWriteChecks : Obligations.BindWriteChecks := by
  intro s idx d
  refine ⟨mkWord_toNat .., fun hc => ?_, fun hc hrej => (execBindw_eq_rf3 hc idx d).mpr ?_, fun hc hp e he => ?_⟩
  · exact requireThat_eq_refused.mpr (.inl hc)
  · rcases hrej with hidx | ⟨rfl, hd⟩ | ⟨rfl, hd⟩ | rfl | hp
    · exact .inl hidx
    · exact .inr (.inl hd)
    · exact .inr (.inl hd)
    · exact .inr (.inr (.inr rfl))
    · exact .inr (.inr (.inl (by simp [hp])))
  · have hde : writeDestOf d = some e := by rcases he with ⟨rfl, rfl⟩ | ⟨rfl, rfl⟩ <;> rfl
    exact ⟨fun hfree => execBindw_admitted (idx := 0) hc hp (by decide) hfree hde,
      fun hfree => execBindw_admitted (idx := 1) hc hp (by decide) hfree hde⟩

/-- Settles O15, as O14 for the read direction, where the DISK read is the one destination. -/
theorem bindReadChecks : Obligations.BindReadChecks := by
  intro s idx d
  refine ⟨mkWord_toNat .., fun hc => ?_, fun hc hrej => (execBindr_eq_rf3 hc idx d).mpr ?_, fun hc hp => ?_⟩
  · exact requireThat_eq_refused.mpr (.inl hc)
  · rcases hrej with hidx | ⟨rfl, hd⟩ | ⟨rfl, hd⟩ | hd | hp
    · exact .inl hidx
    · exact .inr (.inl hd)
    · exact .inr (.inl hd)
    · exact .inr (.inr (.inr (readDestOf_eq_none.mpr hd)))
    · exact .inr (.inr (.inl (by simp [hp])))
  · exact ⟨fun hfree => execBindr_admitted (idx := 0) (d := .diskDataRead) hc hp (by decide) hfree rfl,
      fun hfree => execBindr_admitted (idx := 1) (d := .diskDataRead) hc hp (by decide) hfree rfl⟩

/-- Settles O41: both destinations end in the raise of R101, or in `die` with ready low. -/
theorem writeHandlersEndReadyOrDead : Obligations.WriteHandlersEndReadyOrDead := by
  intro s t d v h
  cases d with
  | diskDataWrite => exact (dataHandler_effect h).ready_eq
  | diskModeSelect => exact diskModeSelect_ready h

/-- Settles O16: the store is all that such a `WR` does. -/
theorem unboundWriteOnlyStores : Obligations.UnboundWriteOnlyStores :=
  fun _ v => ⟨fun hd => exec_wr_unbound (idx := 0) (by decide) hd v,
    fun hd => exec_wr_unbound (idx := 1) (by decide) hd v⟩

/-- Settles O17: the sample is all that such a `RD` does. -/
theorem unboundReadOnlyReturns : Obligations.UnboundReadOnlyReturns :=
  fun _ => ⟨fun hd => ⟨fun _ hv => exec_rd_unbound_holds (idx := 0) (by decide) hd hv,
      fun hv => exec_rd_unbound_unwritten (idx := 0) (by decide) hd hv⟩,
    fun hd => ⟨fun _ hv => exec_rd_unbound_holds (idx := 1) (by decide) hd hv,
      fun hv => exec_rd_unbound_unwritten (idx := 1) (by decide) hd hv⟩⟩

/-- Settles O18: three words without operands, and three updates that read the bits as they are. -/
theorem handshakeBitTransactions : Obligations.HandshakeBitTransactions :=
  fun _ => ⟨rfl, rfl, rfl, rfl, rfl, rfl⟩

/-- Settles O20: only `GETDATA` can stop, at the sample of `reg[0]`; no operation looks at `dead`. -/
theorem controllerOperations : Obligations.ControllerOperations := by
  intro s v
  have hget : exec .getData s = withValue (readReg 0 s) fun r => .next (returning (.byte r) s) := rfl
  refine ⟨mkWord_toNat .., rfl, rfl, rfl, rfl, rfl, by simp [roleOf], rfl, fun hv => ?_, fun hv => ?_,
    rfl, rfl, rfl, rfl⟩
  · rw [hget, (readReg_eq_ok (i := 0) (s := s)).mpr hv]; rfl
  · rw [hget, readReg_unwritten (i := 0) (s := s) hv]; rfl

end

section
/-! The DISK personality (41_disk_peripheral.md), one handler at a time: the branch of a handler that a premise selects,
and the rows of R76 as the register transactions they are. -/

namespace Sys2Proof.Machine

/-! ### A row is its register transaction (R76) -/

/-- Under the table of R100 a `WR 0` is the row of the mode. -/
theorem exec_wr_zero_row {s : State} {m : Mode} (hs : diskMode s = some m) (v : Byte) :
    exec (.wr 0 v) s = exec (selectData0 m v) s := by
  rw [exec_wr_zero hs, exec_selectData0]

/-- Under the table of R100 a `WR 1` is the row of its code. -/
theorem exec_wr_one_row {s : State} {m : Mode} (hs : diskMode s = some m) (v : Byte) :
    exec (.wr 1 v) s = exec (selectMode1 v) s := by
  rw [exec_wr_one hs, exec_selectMode1]

theorem mode_eq_of_diskMode {s : State} {m : Mode} (hs : diskMode s = some m) : s.mode = m := by
  obtain ⟨-, -, -, -, -, hm⟩ := diskMode_eq_some.mp hs
  exact hm

/-! ### A device fault (R120, R152) -/

/-- Whatever a `WR` has stored, a device fault in its handler leaves the same state. -/
theorem die_unsetReady_storeReg (j : Nat) (v : Byte) (s : State) : die (unsetReady (storeReg j v s)) = diedIn s := by
  rw [storeReg_eq]
  rfl

/-! ### The bindings of R100 (R80, R81) -/

theorem exec_bindw_zero {s : State} {d : Dest} {e : WriteDest} (hc : s.constructing = true)
    (hp : s.cfg.personality = .disk) (hfree : s.wdest0 = none) (he : writeDestOf d = some e) :
    exec (.bindw 0 d) s = .next { s with wdest0 := some e } :=
  execBindw_admitted (idx := 0) hc hp (by decide) hfree he

theorem exec_bindw_one {s : State} {d : Dest} {e : WriteDest} (hc : s.constructing = true)
    (hp : s.cfg.personality = .disk) (hfree : s.wdest1 = none) (he : writeDestOf d = some e) :
    exec (.bindw 1 d) s = .next { s with wdest1 := some e } :=
  execBindw_admitted (idx := 1) hc hp (by decide) hfree he

theorem exec_bindr_zero {s : State} {d : Dest} {e : ReadDest} (hc : s.constructing = true)
    (hp : s.cfg.personality = .disk) (hfree : s.rdest0 = none) (he : readDestOf d = some e) :
    exec (.bindr 0 d) s = .next { s with rdest0 := some e } :=
  execBindr_admitted (idx := 0) hc hp (by decide) hfree he

/-! ### Mode select (R102) -/

theorem diskSelect_again {m : Mode} {s : State} (hm : s.mode = m) :
    diskSelect m s = .next { s with ready := !s.dead } := by
  rw [diskSelect_eq, if_pos hm.symm]

theorem diskSelect_echo {m : Mode} {s : State} {e : Byte} (hm : s.mode ≠ m) (he : echo m s = .ok e) :
    diskSelect m s = .next { s with mode := m, reg0 := .holds e, ready := !s.dead } := by
  have he' : echo m { s with ready := false, mode := m } = .ok e := (echo_ok_congr (s := s) (by rfl) (by rfl)).mpr he
  rw [diskSelect_eq, if_neg hm.symm, he', withValue_ok]

theorem diskSelect_echo_error {m : Mode} {s : State} {f : Fault} (hm : s.mode ≠ m)
    (he : echo m { s with ready := false, mode := m } = .error f) : diskSelect m s = .fault f := by
  rw [diskSelect_eq, if_neg hm.symm, he, withValue_error]

/-- DATA has an echo inside the image (R104). -/
theorem echo_data {s : State} (h : s.diskPos ≤ 65535) : echo .data s = .ok (memRead s.img s.diskPos) :=
  if_pos (Nat.lt_succ_of_le h)

/-- Neither DATA nor SECTOR_N has an echo at the sentinel (R104, R107). -/
theorem echo_data_sentinel {s : State} (h : s.diskPos = 65536) : echo .data s = .error (.mf3 65536 s) := by
  simp [echo, readImg, h]

theorem echo_sectorN_sentinel {s : State} (h : s.diskPos = 65536) : echo .sectorN s = .error (.mf5 65536 s) := by
  simp [echo, h]

theorem cursorByte_toNat (pos : Nat) : (cursorByte pos).toNat = pos % 256 := by
  have hbits : bitsOf pos 7 0 = pos % 2 ^ 8 := Nat.and_two_pow_sub_one_eq_mod pos 8
  rw [cursorByte, hbits, BitVec.toNat_ofNat]
  exact Nat.mod_mod pos 256

theorem cursorSector_toNat {pos : Nat} (h : pos ≤ 65535) : (cursorSector pos).toNat = pos / 256 := by
  have hbits : bitsOf pos 15 8 = (pos >>> 8) % 2 ^ 8 := Nat.and_two_pow_sub_one_eq_mod (pos >>> 8) 8
  rw [cursorSector, hbits, BitVec.toNat_ofNat, Nat.shiftRight_eq_div_pow]
  omega

/-- The codes of R66 are all that `resolveMode` resolves. -/
theorem resolveMode_eq_none_of_ne {code : Byte} (h0 : code ≠ 0x00) (hA : code ≠ 0x0A) (hB : code ≠ 0x0B)
    (hC : code ≠ 0x0C) (hF : code ≠ 0x0F) : resolveMode code = none := by
  simp only [resolveMode, h0, hA, hB, hC, hF, if_false]

/-- A code that names no mode kills the device (R109). -/
theorem diskModeSelect_invalid {code : Byte} (h : resolveMode code = none) (s : State) :
    diskModeSelect code s = .next (die (unsetReady s)) := by
  rw [diskModeSelect, h]
  rfl

/-! ### Data-register write (R110 to R114) -/

theorem diskStoreByte_stores {v : Byte} {s : State} (h : s.diskPos ≤ 65535) : diskStoreByte v s =
    .next { s with img := memWrite s.img s.diskPos v, diskPos := s.diskPos + 1, ready := !s.dead } := by
  rw [diskStoreByte_eq, if_neg (Nat.ne_of_lt (Nat.lt_succ_of_le h)), if_pos (Nat.lt_succ_of_le h)]

theorem diskStoreByte_sentinel {v : Byte} {s : State} (h : s.diskPos = 65536) :
    diskStoreByte v s = .next (die (unsetReady s)) := by
  rw [diskStoreByte_eq, if_pos h]

/-- `sext_8` is the two's-complement value (R8, R67). -/
theorem sext8_eq_toInt (v : Byte) : sext8 v = v.toInt := by
  unfold sext8
  rw [BitVec.toInt_eq_toNat_cond]
  split <;> split <;> omega

theorem seekTarget_eq (pos : Nat) (v : Byte) : seekTarget pos v = (pos : Int) + v.toInt := by
  rw [seekTarget, sext8_eq_toInt]

/-- The low byte is set under the sector kept, bit 16 of the sentinel being dropped (R112). -/
theorem withCursorByte_eq (pos : Nat) (v : Byte) : withCursorByte pos v = pos / 256 % 256 * 256 + v.toNat := by
  have hsector : withCursorByte pos v / 256 = pos / 256 % 256 := by
    have hv : v.toNat >>> 8 = 0 := Nat.shiftRight_eq_zero _ _ v.isLt
    have hmask : (pos >>> 8) &&& (0xFF00 >>> 8) = (pos >>> 8) % 2 ^ 8 := Nat.and_two_pow_sub_one_eq_mod _ 8
    have hshift : withCursorByte pos v >>> 8 = (pos >>> 8) % 2 ^ 8 := by
      rw [withCursorByte, Nat.shiftRight_or_distrib, Nat.shiftRight_and_distrib, hv, Nat.or_zero, ← hmask]
    rwa [Nat.shiftRight_eq_div_pow, Nat.shiftRight_eq_div_pow] at hshift
  rw [← hsector, ← withCursorByte_mod pos v, Nat.div_add_mod']

/-- With no backing file the sync command is DF4 (R121). -/
theorem diskCommand_no_path {s : State} (hp : s.path = none) :
    diskCommand syncCode s = .next (die (unsetReady s)) := by
  rw [diskCommand_eq, if_pos rfl, hp]

/-- The sync command that the environment fails is IO2, with ready low (R121, R154). -/
theorem diskCommand_write_fails {s : State} {p : Path} (hp : s.path = some p) (hw : s.draw.fileWriteOk = false) :
    diskCommand syncCode s = .fault (.io2 { s with ready := false }) := by
  rw [diskCommand_eq, if_pos rfl]
  simp only [hp, hw, Bool.false_eq_true, if_false]

/-- A command that is not the sync command only raises ready (R114). -/
theorem diskCommand_nop {v : Byte} {s : State} (hv : v ≠ syncCode) :
    diskCommand v s = .next { s with ready := !s.dead } := by
  rw [diskCommand_eq, if_neg hv]

/-! ### Data-register read (R115, R116) -/

theorem diskPrefetch_next {s : State} (h : s.diskPos < 65535) : diskPrefetch s =
    .next { s with diskPos := s.diskPos + 1, reg0 := .holds (memRead s.img (s.diskPos + 1)), ready := !s.dead } := by
  rw [diskPrefetch_eq, if_neg (Nat.not_le_of_lt h)]

theorem diskPrefetch_fault {s : State} (h : 65535 ≤ s.diskPos) :
    diskPrefetch s = .fault (.mf3 (s.diskPos + 1) { s with ready := false }) := by
  rw [diskPrefetch_eq, if_pos h]

/-- `BEFORE_HANDLER` (R90): the sample of a written cell, then the read destination. -/
theorem readThrough_before {i : Nat} {dest : State → Out} {s : State} {r : Byte}
    (hrs : s.cfg.readSample = .beforeHandler) (hr : regCell i s = .holds r) :
    readThrough i dest s = andThen (dest (performed s)) fun t => .next (returning (.byte r) t) := by
  simp only [readThrough, performed_cfg, hrs, (readReg_eq_ok (s := performed s)).mpr hr, withValue_ok]

/-- `BEFORE_HANDLER` (R90): an unwritten cell stops the read before its destination runs. -/
theorem readThrough_before_unwritten {i : Nat} {dest : State → Out} {s : State}
    (hrs : s.cfg.readSample = .beforeHandler) (hr : regCell i s = .unwritten) :
    readThrough i dest s = .fault (.mf1 i (performed s)) := by
  simp only [readThrough, performed_cfg, hrs, readReg_unwritten (s := performed s) hr, withValue_error]

/-- `AFTER_HANDLER` (R90): the read destination, then the sample. -/
theorem readThrough_after {i : Nat} {dest : State → Out} {s : State} (hrs : s.cfg.readSample = .afterHandler) :
    readThrough i dest s =
      andThen (dest (performed s)) fun t => withValue (readReg i t) fun r => .next (returning (.byte r) t) := by
  simp only [readThrough, performed_cfg, hrs]

/-- Outside DATA mode a `RD 0` is the row of R116. -/
theorem selectRead0_of_ne_data {m : Mode} (hm : m ≠ .data) : selectRead0 m = .rd0NotData := by
  cases m with
  | data => exact absurd rfl hm
  | seek | byteN | sectorN | ctrl => rfl

/-- A data-register read outside DATA mode stops in every state: at its sample, or in its handler (R116, R158). -/
theorem exec_rd0NotData (s : State) : exec .rd0NotData s =
    .fault (if s.reg0 = .unwritten ∧ s.cfg.readSample = .beforeHandler then .mf1 0 (performed s)
      else .mf4 s.mode (performed s)) := by
  have hrow : exec .rd0NotData s = readThrough 0 diskReadElsewhere s := rfl
  rw [hrow]
  cases hrs : s.cfg.readSample with
  | afterHandler => rw [readThrough_after hrs]; simp [diskReadElsewhere]
  | beforeHandler =>
    cases hr : s.reg0 with
    | unwritten => rw [readThrough_before_unwritten (i := 0) hrs hr]; simp
    | holds r => rw [readThrough_before (i := 0) hrs hr]; simp [diskReadElsewhere]

end Sys2Proof.Machine

open Sys2Proof Sys2Proof.Machine

/-- Settles O26: `resolveMode` finds no mode, so the handler's DF1 is all that happens after the store. -/
theorem invalidCodeDies : Obligations.InvalidCodeDies := by
  intro s m code hs h0 hA hB hC hF
  have hcode : resolveMode code = none := resolveMode_eq_none_of_ne h0 hA hB hC hF
  have hdies : diskModeSelect code (storeReg 1 code s) = .next (diedIn s) := by
    rw [diskModeSelect_invalid hcode, die_unsetReady_storeReg]
  exact ⟨mkWord_toNat .., hdies, (exec_wr_one hs code).trans hdies⟩

/-- Settles O27: the byte is written where the cursor was, and a written image reads back. -/
theorem dataWriteStoresThenAdvances : Obligations.DataWriteStoresThenAdvances := by
  intro s v hs hwf
  refine ⟨mkWord_toNat .., exec_wr_zero_row hs v, fun hpos => ?_, fun hpos => ?_⟩
  · exact ⟨_, diskStoreByte_stores (s := storeReg 0 v s) hpos, fun a => memRead_memWrite hwf a, rfl⟩
  · rw [← die_unsetReady_storeReg 0 v s]
    exact diskStoreByte_sentinel (s := storeReg 0 v s) hpos

/-- Settles O28: the target is the cursor plus the two's-complement offset, tested before the cursor moves. -/
theorem seekMovesOrDies : Obligations.SeekMovesOrDies := by
  intro s v hs
  have hseek := diskSeek_eq v (storeReg 0 v s)
  rw [storeReg_diskPos, seekTarget_eq, die_unsetReady_storeReg] at hseek
  refine ⟨mkWord_toNat .., exec_wr_zero_row hs v, fun hlo hhi => ?_, fun hout => hseek.trans (if_pos hout)⟩
  exact ⟨_, Int.toNat_of_nonneg hlo, hseek.trans (if_neg (by omega))⟩

/-- Settles O29: the new cursor is the sector of the old one, without bit 16, over the byte. -/
theorem byteWriteKeepsSector : Obligations.ByteWriteKeepsSector := by
  intro s v hs
  have heq := withCursorByte_eq s.diskPos v
  have hv := v.isLt
  exact ⟨_, mkWord_toNat .., exec_wr_zero_row hs v, diskSetByte_eq v (storeReg 0 v s), withCursorByte_le _ v,
    withCursorByte_mod _ v, fun _ => by rw [storeReg_diskPos]; omega, fun _ => by rw [storeReg_diskPos]; omega⟩

/-- Settles O30: the new cursor is the low byte of the old one under the new high byte. -/
theorem sectorWriteKeepsByte : Obligations.SectorWriteKeepsByte := by
  intro s v hs
  have heq := withCursorSector_eq s.diskPos v
  refine ⟨_, mkWord_toNat .., exec_wr_zero_row hs v, diskSetSector_eq v (storeReg 0 v s), withCursorSector_le _ v,
    ?_, fun _ => ?_, fun _ => ?_⟩ <;> rw [storeReg_diskPos] <;> omega

/-- Settles O38: the file's first 65536 bytes, read with 0 for those it does not have. -/
theorem normalizePadsAndTruncates : Obligations.NormalizePadsAndTruncates := by
  intro bytes k
  have hlen : (bytes.take imageSize).length = min bytes.length 65536 := by rw [List.length_take, Nat.min_comm]
  rw [memRead_normalizeFile]
  split
  · next hk =>
    rw [List.getD_eq_getElem _ _ (by omega), List.getElem_take, List.getD_eq_getElem _ _ (by omega)]
  · next hk => exact List.getD_eq_default _ _ (by omega)

/-- Settles O13: nothing is bound before, and each binding leaves the block under construction and the others free. -/
theorem bindingsBuildTheDiskTable : Obligations.BindingsBuildTheDiskTable := by
  intro c hc
  have hdisk : State.resetFor c =
      { State.bare c with
        wdest0 := some .diskDataWrite, wdest1 := some .diskModeSelect, rdest0 := some .diskDataRead } := by
    rw [State.resetFor, hc]
  rw [hdisk, runList, exec_bindw_zero rfl hc rfl rfl, andThen_next, runList, exec_bindw_one rfl hc rfl rfl,
    andThen_next, runList, exec_bindr_zero rfl hc rfl rfl]
  rfl

/-- Settles O21: the echo is the image byte at the cursor, which the sentinel does not have. -/
theorem selectDataEchoesByte : Obligations.SelectDataEchoesByte := by
  intro s m hs
  obtain rfl := mode_eq_of_diskMode hs
  exact ⟨rfl, exec_wr_one_row hs 0x00,
    fun hm hpos => diskSelect_echo (s := storeReg 1 0x00 s) hm (echo_data (s := storeReg 1 0x00 s) hpos),
    fun hm hpos => diskSelect_echo_error (s := storeReg 1 0x00 s) hm (echo_data_sentinel hpos),
    fun hm => diskSelect_again (s := storeReg 1 0x00 s) hm⟩

/-- Settles O22: SEEK has the echo 0 at every cursor. -/
theorem selectSeekEchoesZero : Obligations.SelectSeekEchoesZero := by
  intro s m hs
  obtain rfl := mode_eq_of_diskMode hs
  exact ⟨rfl, exec_wr_one_row hs 0x0A, fun hm => diskSelect_echo (s := storeReg 1 0x0A s) hm rfl,
    fun hm => diskSelect_again (s := storeReg 1 0x0A s) hm⟩

/-- Settles O23: BYTE_N has an echo at every cursor, the sentinel's being 0. -/
theorem selectByteEchoesLowByte : Obligations.SelectByteEchoesLowByte := by
  intro s m hs
  obtain rfl := mode_eq_of_diskMode hs
  exact ⟨rfl, exec_wr_one_row hs 0x0B,
    fun hm => ⟨_, cursorByte_toNat s.diskPos, diskSelect_echo (s := storeReg 1 0x0B s) hm rfl⟩,
    fun hm => diskSelect_again (s := storeReg 1 0x0B s) hm⟩

/-- Settles O24: the echo is the sector, which the sentinel does not have. -/
theorem selectSectorEchoesHighByte : Obligations.SelectSectorEchoesHighByte := by
  intro s m hs
  obtain rfl := mode_eq_of_diskMode hs
  exact ⟨rfl, exec_wr_one_row hs 0x0C,
    fun hm hpos => ⟨_, cursorSector_toNat hpos, diskSelect_echo (s := storeReg 1 0x0C s) hm
      (echo_sectorN (s := storeReg 1 0x0C s) (Nat.ne_of_lt (Nat.lt_succ_of_le hpos)))⟩,
    fun hm hpos => diskSelect_echo_error (s := storeReg 1 0x0C s) hm (echo_sectorN_sentinel hpos),
    fun hm => diskSelect_again (s := storeReg 1 0x0C s) hm⟩

/-- Settles O25: CTRL has the echo 0 at every cursor. -/
theorem selectCtrlEchoesZero : Obligations.SelectCtrlEchoesZero := by
  intro s m hs
  obtain rfl := mode_eq_of_diskMode hs
  exact ⟨rfl, exec_wr_one_row hs 0x0F, fun hm => diskSelect_echo (s := storeReg 1 0x0F s) hm rfl,
    fun hm => diskSelect_again (s := storeReg 1 0x0F s) hm⟩

/-- Settles O31: the command, the path and the environment's answer select one of the four ends of the CTRL write. -/
theorem controlWriteSyncsOrNothing : Obligations.ControlWriteSyncsOrNothing := by
  intro s v hs
  refine ⟨mkWord_toNat .., exec_wr_zero_row hs v, fun hv => diskCommand_nop (s := storeReg 0 v s) hv, ?_, ?_, ?_⟩
  · rintro rfl hp
    rw [← die_unsetReady_storeReg 0 syncCode s]
    exact diskCommand_no_path (s := storeReg 0 syncCode s) hp
  · rintro p rfl hp hw
    exact diskCommand_sync (s := storeReg 0 syncCode s) hp hw
  · rintro p rfl hp hw
    exact diskCommand_write_fails (s := storeReg 0 syncCode s) hp hw

/-- Settles O32: the sample comes before or after a prefetch that has a next byte to load or is MF3. -/
theorem dataReadAdvancesThenLoads : Obligations.DataReadAdvancesThenLoads := by
  intro s hs
  have hrow : exec .rd0Data s = readThrough 0 diskPrefetch s := rfl
  refine ⟨rfl, (exec_selectRead0 hs).symm, fun r hrs hr hpos => ?_, fun r hrs hr hpos => ?_,
    fun hrs hr => readThrough_before_unwritten hrs hr, fun hrs hpos => ?_, fun hrs hpos => ?_⟩
  · rw [hrow, readThrough_before (i := 0) hrs hr, diskPrefetch_next (s := performed s) hpos]; rfl
  · rw [hrow, readThrough_before (i := 0) hrs hr, diskPrefetch_fault (s := performed s) hpos]; rfl
  · rw [hrow, readThrough_after hrs, diskPrefetch_next (s := performed s) hpos]; rfl
  · rw [hrow, readThrough_after hrs, diskPrefetch_fault (s := performed s) hpos]; rfl

/-- Settles O33: the row ends in one fault or the other, and its mode is the block's. -/
theorem readOutsideDataFaults : Obligations.ReadOutsideDataFaults := by
  refine ⟨fun s m hs hm => ?_, fun s => ⟨_, exec_rd0NotData s⟩⟩
  obtain rfl := mode_eq_of_diskMode hs
  refine ⟨rfl, selectRead0_of_ne_data hm ▸ (exec_selectRead0 hs).symm, fun hgo => ?_, fun hr hrs => ?_⟩
  · have hsample : ¬ (s.reg0 = .unwritten ∧ s.cfg.readSample = .beforeHandler) := by
      rintro ⟨hr, hrs⟩
      rcases hgo with hwritten | hafter
      · exact hwritten hr
      · cases hrs.symm.trans hafter
    rw [exec_rd0NotData, if_neg hsample]
    rfl
  · rw [exec_rd0NotData, if_pos ⟨hr, hrs⟩]
    rfl

/-- Settles O34: register 1 has no read destination, so the sample is all that happens. -/
theorem readModeRegister : Obligations.ReadModeRegister := by
  intro s m hs
  obtain ⟨-, -, -, -, hfree, -⟩ := diskMode_eq_some.mp hs
  rw [exec_rd1 hs]
  exact ⟨rfl, rfl, fun _ hv => exec_rd_unbound_holds (idx := 1) (by decide) hfree hv,
    fun hv => exec_rd_unbound_unwritten (idx := 1) (by decide) hfree hv⟩

/-- Settles O37: the personality is looked at, then the file is asked, and only then is anything changed. -/
theorem loadReplacesImage : Obligations.LoadReplacesImage := by
  intro s p
  refine ⟨rfl, rfl, rfl, fun bytes hd hf => ?_, fun hd hf => ?_, fun ho => ?_⟩
  · simp only [exec, execLoad, hd, hf, loadBytes_eq]
    rfl
  · simp only [exec, execLoad, hd, hf]
    rfl
  · simp only [exec, execLoad, ho]
    rfl

end

section
/-! The OUTPUT personality (42_output_peripheral.md): the host's and the timer's operations, which a DISK block refuses,
the tick the block takes when nothing is presented, and the register transactions of a block with nothing bound. -/

namespace Sys2Proof.Machine

/-! ### The operations of the OUTPUT personality only (R71) -/

theorem requireOutput_of_output {s : State} (hp : s.cfg.personality = .output) (k : Out) :
    requireThat (s.cfg.personality == .output) .rf4 k = k := by rw [hp]; rfl

theorem requireOutput_of_disk {s : State} (hp : s.cfg.personality = .disk) (k : Out) :
    requireThat (s.cfg.personality == .output) .rf4 k = .refused .rf4 := by rw [hp]; rfl

/-- An interval of R24 passes the check of its width, and the personality is looked at next. -/
theorem exec_ivl_of_le {k : Byte} (hk : k.toNat ≤ 3) (s : State) : exec (.ivl k) s =
    requireThat (s.cfg.personality == .output) .rf4 (.next { performed s with intervalK := k.setWidth 2 }) := by
  rw [exec, execIvl, decide_eq_true (Nat.lt_succ_of_le hk), requireThat_true]

/-- The two bits that hold the interval hold every `k` of R24. -/
theorem intervalK_toNat {k : Byte} (hk : k.toNat ≤ 3) : (k.setWidth 2).toNat = k.toNat := by
  rw [BitVec.toNat_setWidth, Nat.mod_eq_of_lt (by omega)]

/-! ### The poll tick (R141) -/

theorem tickEnabled_iff {s : State} : tickEnabled s = true ↔ s.power = true ∧ s.flag = false := by
  simp [tickEnabled]

theorem exec_tick_enabled {s : State} (hp : s.cfg.personality = .output) (he : tickEnabled s = true) :
    exec .tick s = withValue (readReg 0 s) fun v => .next (setFlag (emit v (performed s))) :=
  (requireOutput_of_output hp _).trans (if_pos he)

theorem exec_tick_disabled {s : State} (hp : s.cfg.personality = .output) (he : ¬ tickEnabled s = true) :
    exec .tick s = .next s :=
  (requireOutput_of_output hp _).trans (if_neg he)

theorem exec_tick_holds {s : State} {v : Byte} (hp : s.cfg.personality = .output) (he : tickEnabled s = true)
    (hv : s.reg0 = .holds v) :
    exec .tick s = .next { s with constructing := false, output := s.output ++ [v], flag := true } := by
  rw [exec_tick_enabled hp he, (readReg_eq_ok (i := 0) (s := s)).mpr hv, withValue_ok]
  rfl

/-- With nothing presented the timer is the one agent left, and an enabled tick is taken (R189). -/
theorem step_of_enabled_tick {s : State} (hf : s.faultRecord = none) (hp : s.pending = [])
    (he : s.cfg.personality = .output ∧ tickEnabled s = true) : step s = exec .tick { s with reply := none } := by
  have hfetch : fetch s = .run .tick { s with reply := none } := by simp only [fetch, hf, hp, if_pos he]
  simp only [step, hfetch]

/-- With nothing presented and no tick enabled no agent has a step (R45, R189). -/
theorem step_of_idle {s : State} (hf : s.faultRecord = none) (hp : s.pending = [])
    (he : ¬ (s.cfg.personality = .output ∧ tickEnabled s = true)) : step s = .next s := by
  have hfetch : fetch s = .idle := by simp only [fetch, hf, hp, if_neg he]
  simp only [step, hfetch]

/-! ### A block with nothing bound (R140) -/

theorem unbound_iff {s : State} :
    unbound s = true ↔ s.wdest0 = none ∧ s.wdest1 = none ∧ s.rdest0 = none ∧ s.rdest1 = none := by
  simp [unbound, and_assoc]

theorem wdest_of_unbound {s : State} (h : unbound s = true) (j : Nat) : wdest j s = none := by
  obtain ⟨hw0, hw1, -, -⟩ := unbound_iff.mp h
  rw [wdest, hw0, hw1, ite_self]

theorem rdest_of_unbound {s : State} (h : unbound s = true) (j : Nat) : rdest j s = none := by
  obtain ⟨-, -, hr0, hr1⟩ := unbound_iff.mp h
  rw [rdest, hr0, hr1, ite_self]

/-- The rows of R76 are the DISK personality's: no OUTPUT block has a mode to select one by. -/
theorem diskMode_of_output {s : State} (hp : s.cfg.personality = .output) : diskMode s = none :=
  if_neg fun ⟨hd, _⟩ => nomatch hp.symm.trans hd

/-- Where no row of R76 applies, a register write is spelled `WR`. -/
theorem eq_wr_of_rowApplies_none {i : Instr} {w : Nat × Byte} (hr : rowApplies none i = true)
    (hw : writeOperands i = some w) : ∃ idx v, i = .wr idx v := by
  cases i with
  | wr idx v => exact ⟨idx, v, rfl⟩
  | _ => simp [rowApplies, writeOperands] at hr hw

/-- Where no row of R76 applies, a register read is spelled `RD`. -/
theorem eq_rd_of_rowApplies_none {i : Instr} (hr : rowApplies none i = true) (hi : isRead i = true) :
    ∃ idx, i = .rd idx := by
  cases i with
  | rd idx => exact ⟨idx, rfl⟩
  | _ => simp [rowApplies, isRead] at hr hi

/-- A `WR` with no destination to run only stores, which leaves ready (R89). -/
theorem exec_wr_unbound_ready {s t : State} {idx : Nibble} {v : Byte} (hu : unbound s = true)
    (h : exec (.wr idx v) s = .next t) : t.ready = s.ready := by
  simp only [exec, execWr, wdest_of_unbound hu, runWrite] at h
  split at h
  · cases h
  · injection h with h
    rw [← h, storeReg_eq]

/-- A `RD` with no destination to run only samples, which leaves ready (R90). -/
theorem exec_rd_unbound_ready {s t : State} {idx : Nibble} (hu : unbound s = true)
    (h : exec (.rd idx) s = .next t) : t.ready = s.ready := by
  simp only [exec, execRd, rdest_of_unbound hu] at h
  split at h
  · cases h
  · obtain ⟨r, u, hrun, rfl⟩ := readThrough_next h
    injection hrun with hrun
    rw [← hrun, returning_ready, performed_ready]

end Sys2Proof.Machine

open Sys2Proof Sys2Proof.Machine

/-- Settles O48: the effects that write ready are those of a destination, of the device's own two operations and of a
`LOAD`, and an OUTPUT block runs no destination and refuses a `LOAD`. -/
theorem outputNeverTouchesReady : Obligations.OutputNeverTouchesReady := by
  intro s t i disk h hp hu hdisk hrow hdev
  have hrow : rowApplies none i = true := by rwa [← diskMode_of_output hp, hdisk]
  cases exec_effect h with
  | write _ _ _ hw =>
    obtain ⟨idx, v, rfl⟩ := eq_wr_of_rowApplies_none hrow hw
    exact exec_wr_unbound_ready hu h
  | readAhead _ hi =>
    obtain ⟨idx, rfl⟩ := eq_rd_of_rowApplies_none hrow hi
    exact exec_rd_unbound_ready hu h
  | devReady hi | devUnready hi => subst hi; cases hdev
  | loaded _ _ _ hd => cases hp.symm.trans hd
  | _ => rfl

/-- Settles O10: the tick is performed in the state whose reply is gone, and nothing else can be. -/
theorem enabledTickIsTaken : Obligations.EnabledTickIsTaken := by
  intro s hf hpending
  refine ⟨fun v hp hpower hflag hv => ?_, fun hoff => step_of_idle hf hpending ?_⟩
  · have he : tickEnabled s = true := tickEnabled_iff.mpr ⟨hpower, hflag⟩
    rw [step_of_enabled_tick hf hpending ⟨hp, he⟩]
    exact exec_tick_holds (s := { s with reply := none }) hp he hv
  · rintro ⟨hp, he⟩
    obtain ⟨hpower, hflag⟩ := tickEnabled_iff.mp he
    simp [hp, hpower, hflag] at hoff

/-- Settles O45: the personality is looked at, then the power and the flag, and only then is `reg[0]` read. -/
theorem tickServesOneRequest : Obligations.TickServesOneRequest := by
  intro s
  refine ⟨rfl, rfl, fun hp => requireOutput_of_disk hp _, fun v hp hpower hflag hv => ?_,
    fun hp hpower hflag hv => ?_, fun hp hoff => exec_tick_disabled hp ?_⟩
  · exact exec_tick_holds hp (tickEnabled_iff.mpr ⟨hpower, hflag⟩) hv
  · rw [exec_tick_enabled hp (tickEnabled_iff.mpr ⟨hpower, hflag⟩), readReg_unwritten (i := 0) (s := s) hv,
      withValue_error]
  · rw [tickEnabled_iff]
    rintro ⟨hpower, hflag⟩
    simp [hpower, hflag] at hoff

/-- Settles O46: `IVL` checks the width of its interval before the personality, and keeps the two bits that hold it. -/
theorem powerAndIntervalOperations : Obligations.PowerAndIntervalOperations := by
  intro s k
  refine ⟨rfl, mkWord_toNat .., rfl, rfl, fun hp => requireOutput_of_output hp _, fun hp => requireOutput_of_disk hp _,
    fun hp hk => ⟨_, (exec_ivl_of_le hk s).trans (requireOutput_of_output hp _), ?_, rfl⟩,
    fun hp hk => (exec_ivl_of_le hk s).trans (requireOutput_of_disk hp _), fun hk => ?_⟩
  · exact congrArg (10 ^ ·) (intervalK_toNat hk)
  · exact requireThat_eq_refused.mpr (.inl (decide_eq_false (by omega)))

end

section
/-! The exceptions of the block (60_exceptions.md): the role table of R163, the fault record (R26, R156), what the power
gates (R167) and the causes of a device fault (R151). -/

namespace Sys2Proof.Machine

/-! ### Roles (R163) -/

/-- A request whose word decodes to an operation of another role is not admitted (R157, R163). -/
theorem admitRequest_of_wrong_role {r : Request} {s : State} {w : Word} {i : Instr} (hw : wordOfForm r.form = .ok w)
    (hi : decodeIn (diskMode s) w r.path = .ok i) (hr : roleOf i ≠ r.role) : admitRequest r s = .error .rf4 := by
  simp only [admitRequest, hw, hi, if_neg hr]

/-! ### The fault record (R26, R156) -/

/-- A recorded fault is all a block answers with (R156). -/
theorem step_of_faultRecord {s : State} {r : FaultRecord} (h : s.faultRecord = some r) :
    step s = .fault (recordedFault r s) := by
  have hfetch : fetch s = .stuck r := by simp only [fetch, h]
  simp only [step, hfetch]

theorem advance_of_fault {s : State} {f : Fault} (h : step s = .fault f) : advance s = faulted f := by
  simp only [advance, h]

/-- Recording the recorded fault again changes nothing. -/
theorem faulted_recordedFault {s : State} {r : FaultRecord} (h : s.faultRecord = some r) :
    faulted (recordedFault r s) = s := by
  rw [faulted, faultPoint_recordedFault, faultRecordOf_recordedFault, ← h]

/-- No write destination touches the fault record. -/
theorem WriteEffect.faultRecord_eq {v : Byte} {s t : State} (h : WriteEffect v s t) :
    t.faultRecord = s.faultRecord := by
  cases h <;> rfl

/-- An operation that answers a next state leaves the fault record: only the run records a fault (R26). -/
theorem exec_faultRecord {i : Instr} {s t : State} (h : exec i s = .next t) : t.faultRecord = s.faultRecord := by
  cases exec_effect h with
  | write _ _ _ _ _ ht => rw [ht.faultRecord_eq, storeReg_eq]
  | _ => rfl

theorem fetch_run_faultRecord {s u : State} {i : Instr} (h : fetch s = .run i u) : u.faultRecord = s.faultRecord := by
  rcases fetch_run h with ⟨-, rfl⟩ | ⟨r, rest, -, -, rfl⟩ <;> rfl

/-! ### The causes of a device fault (R151) -/

@[simp] theorem storeReg_dead (j : Nat) (v : Byte) (s : State) : (storeReg j v s).dead = s.dead := by rw [storeReg_eq]

/-- A handler that took `s` to `t` has raised a device fault, which leaves its one state (R152), exactly when `cause`
holds. -/
def DiesExactlyWhen (cause : Prop) (s t : State) : Prop :=
  (t.dead = true ↔ cause) ∧ (t.dead = true → t = die (unsetReady s))

theorem DiesExactlyWhen.of_cause {cause : Prop} {s t : State} (hc : cause) (ht : t = die (unsetReady s)) :
    DiesExactlyWhen cause s t := by
  subst ht
  exact ⟨iff_of_true rfl hc, fun _ => rfl⟩

theorem DiesExactlyWhen.of_alive {cause : Prop} {s t : State} (hc : ¬ cause) (ht : t.dead = false) :
    DiesExactlyWhen cause s t := by
  have hlive : ¬ t.dead = true := by simp [ht]
  exact ⟨iff_of_false hlive hc, fun hd => absurd hd hlive⟩

/-- The cause of a device fault in the data-register write of each mode: DF3, DF2 and DF4 of R151. -/
def dataFaultCause (m : Mode) (v : Byte) (s : State) : Prop :=
  match m with
  | .data => s.diskPos = posMax
  | .seek => seekTarget s.diskPos v < 0 ∨ 65535 < seekTarget s.diskPos v
  | .byteN | .sectorN => False
  | .ctrl => v = syncCode ∧ s.path = none

/-- The mode select kills a live device exactly for an unknown code: DF1 of R151. -/
theorem diskModeSelect_dies {v : Byte} {s t : State} (hs : s.dead = false) (h : diskModeSelect v s = .next t) :
    DiesExactlyWhen (resolveMode v = none) s t := by
  cases hv : resolveMode v with
  | none =>
    rw [diskModeSelect_invalid hv] at h
    injection h with h
    exact .of_cause rfl h.symm
  | some m =>
    rw [diskModeSelect, hv] at h
    rcases diskSelect_next h with ⟨-, rfl⟩ | ⟨-, e, -, rfl⟩ <;> exact .of_alive nofun hs

/-- A CTRL command kills a live device exactly when it is the sync command with no backing file (R114, R121). -/
theorem diskCommand_dies {v : Byte} {s t : State} (hs : s.dead = false) (h : diskCommand v s = .next t) :
    DiesExactlyWhen (dataFaultCause .ctrl v s) s t := by
  rw [diskCommand_eq] at h
  split at h
  · next hv =>
    split at h
    · next hp => injection h with h; exact .of_cause ⟨hv, hp⟩ h.symm
    · next p hp =>
      have hpath : ¬ dataFaultCause .ctrl v s := by simp [dataFaultCause, hp]
      split at h
      · injection h with h; subst h; exact .of_alive hpath hs
      · cases h
  · next hv => injection h with h; subst h; exact .of_alive (fun hc => hv hc.1) hs

/-- The data-register write kills a live device exactly for the cause of its mode. -/
theorem dataHandler_dies {m : Mode} {v : Byte} {s t : State} (hs : s.dead = false)
    (h : dataHandler m v s = .next t) : DiesExactlyWhen (dataFaultCause m v s) s t := by
  cases m with
  | data =>
    rcases diskStoreByte_next h with ⟨hp, rfl⟩ | ⟨hp, rfl⟩
    · exact .of_cause hp rfl
    · exact .of_alive (Nat.ne_of_lt hp) hs
  | seek =>
    rw [dataHandler, diskSeek_eq] at h
    split at h
    · next hout => injection h with h; exact .of_cause hout h.symm
    · next hin => injection h with h; subst h; exact .of_alive hin hs
  | byteN => rw [dataHandler, diskSetByte_eq] at h; injection h with h; subst h; exact .of_alive id hs
  | sectorN => rw [dataHandler, diskSetSector_eq] at h; injection h with h; subst h; exact .of_alive id hs
  | ctrl => exact diskCommand_dies hs h

/-- A `WR` that does not fault names a register that exists (MF2 of R155). -/
theorem lt_numRegs_of_exec_wr {idx : Nibble} {v : Byte} {s t : State} (h : exec (.wr idx v) s = .next t) :
    idx.toNat < numRegs := by
  simp only [exec, execWr] at h
  split at h
  · cases h
  · next hidx => exact Nat.lt_of_not_le hidx

end Sys2Proof.Machine

open Sys2Proof Sys2Proof.Machine

/-- Settles O42: a `WR` that completes is one of register 0 or 1, whose handler under the table of R100 dies exactly for
its own cause, and dying forgets what was stored. -/
theorem deviceFaultCauses : Obligations.DeviceFaultCauses := by
  intro s t idx v m hs hlive _ h
  rcases nibble_eq_of_lt_numRegs (lt_numRegs_of_exec_wr h) with rfl | rfl
  · rw [exec_wr_zero hs] at h
    obtain ⟨hcause, hstate⟩ := dataHandler_dies ((storeReg_dead 0 v s).trans hlive) h
    rw [die_unsetReady_storeReg] at hstate
    refine ⟨hcause.trans ?_, hstate⟩
    cases m <;> simp [dataFaultCause, seekTarget_eq]
  · rw [exec_wr_one hs] at h
    obtain ⟨hcause, hstate⟩ := diskModeSelect_dies ((storeReg_dead 1 v s).trans hlive) h
    rw [die_unsetReady_storeReg] at hstate
    exact ⟨hcause.trans (by simp), hstate⟩

/-- Settles O49: the change of the power alone keeps the interval, and the two operations that read the power are set
aside. -/
theorem powerGatesOnlyTheTick : Obligations.PowerGatesOnlyTheTick :=
  fun s _ b htick hpwr =>
    exec_mapPoll (fun _ => b) id (fun hi => absurd hi hpwr) (fun _ _ _ => rfl) (fun hi => absurd hi htick) s

/-- Settles O7: the port checks the role last, and the role table is read off operation by operation. -/
theorem wrongRoleRefused : Obligations.WrongRoleRefused := by
  refine ⟨fun s r rest w i hfault hpending hword hdecode hrole =>
    step_of_admitRequest_error hfault hpending (admitRequest_of_wrong_role hword hdecode hrole), ?_, ?_, ?_, ?_, ?_⟩
  all_goals
    intro i
    cases i <;> simp [roleOf]

/-- Settles O9: the run alone writes the record, and a block with one takes no other step. -/
theorem faultRecordNeverCleared : Obligations.FaultRecordNeverCleared := by
  refine ⟨fun s f h => advance_of_fault h, fun s r hr => ?_, fun s t hnone h => ?_⟩
  · have hstep : step s = .fault (recordedFault r s) := step_of_faultRecord hr
    exact ⟨hstep, (advance_of_fault hstep).trans (faulted_recordedFault hr)⟩
  · rcases step_next h with rfl | ⟨i, u, hf, hexec⟩
    · exact hnone
    · rw [exec_faultRecord hexec, fetch_run_faultRecord hf, hnone]

end

section
/-! Reset and the hazards of software (70_reset_and_hazards.md): what a DATA write and a DATA read leave each other
(R184), what is left to do at the last byte and at the sentinel (R185), and the ready a `WR` leaves (R183). -/

namespace Sys2Proof.Machine

/-! ### The DATA transactions through the bus (R110, R115) -/

theorem exec_wr_data {s : State} (hs : diskMode s = some .data) (hpos : s.diskPos ≤ 65535) (v : Byte) :
    exec (.wr 0 v) s = .next { s with constructing := false, reg0 := .holds v, img := memWrite s.img s.diskPos v,
                                      diskPos := s.diskPos + 1, ready := !s.dead } :=
  (exec_wr_zero hs v).trans (diskStoreByte_stores (s := storeReg 0 v s) hpos)

theorem exec_wr_data_sentinel {s : State} (hs : diskMode s = some .data) (hpos : s.diskPos = 65536) (v : Byte) :
    exec (.wr 0 v) s = .next (diedIn s) := by
  rw [exec_wr_zero hs, dataHandler, diskStoreByte_sentinel (s := storeReg 0 v s) hpos, die_unsetReady_storeReg]

theorem exec_rd_data {s : State} {r : Byte} (hs : diskMode s = some .data)
    (hrs : s.cfg.readSample = .beforeHandler) (hr : s.reg0 = .holds r) (hpos : s.diskPos < 65535) :
    exec (.rd 0) s = .next { s with constructing := false, diskPos := s.diskPos + 1,
                                    reg0 := .holds (memRead s.img (s.diskPos + 1)), ready := !s.dead,
                                    reply := some (.byte r) } := by
  obtain ⟨-, hrow, hread, -⟩ := dataReadAdvancesThenLoads s hs
  exact hrow.trans (hread r hrs hr hpos)

/-- With no byte to prefetch a DATA read has no value to return under either `READ_SAMPLE` (R115, R158). -/
theorem recordOf_exec_rd_data {s : State} (hs : diskMode s = some .data) (hpos : 65535 ≤ s.diskPos) :
    recordOf (exec (.rd 0) s) =
      some (if s.cfg.readSample = .beforeHandler ∧ s.reg0 = .unwritten then .mf1 0 else .mf3 (s.diskPos + 1)) := by
  obtain ⟨-, hrow, -, hbefore, hunwritten, -, hafter⟩ := dataReadAdvancesThenLoads s hs
  rw [hrow]
  cases hrs : s.cfg.readSample with
  | afterHandler => rw [hafter hrs hpos]; rfl
  | beforeHandler =>
    cases hr : s.reg0 with
    | unwritten => rw [hunwritten hrs hr]; rfl
    | holds r => rw [hbefore r hrs hr hpos, if_neg (by simp)]; rfl

/-! ### SEEK from the sentinel (R111) -/

/-- No offset of 0 or more leads from the sentinel back into the image. -/
theorem exec_wr_seek_sentinel_dies {s : State} {v : Byte} (hs : diskMode s = some .seek) (hpos : s.diskPos = 65536)
    (hv : v.toNat < 128) : exec (.wr 0 v) s = .next (diedIn s) := by
  obtain ⟨-, hrow, -, hdies⟩ := seekMovesOrDies s v hs
  have hoffset : v.toInt = v.toNat := BitVec.toInt_eq_toNat_of_lt (by omega)
  exact hrow.trans (hdies (by omega))

/-- Every negative offset does: its target is 65536 plus the payload less 256. -/
theorem exec_wr_seek_sentinel_moves {s : State} {v : Byte} (hs : diskMode s = some .seek) (hpos : s.diskPos = 65536)
    (hv : 128 ≤ v.toNat) : exec (.wr 0 v) s =
      .next { s with constructing := false, reg0 := .holds v, diskPos := 65280 + v.toNat, ready := !s.dead } := by
  obtain ⟨-, hrow, hmoves, -⟩ := seekMovesOrDies s v hs
  have hoffset : v.toInt = v.toNat - 256 := by rw [BitVec.toInt_eq_toNat_cond, if_neg (by omega)]; rfl
  have hbyte := v.isLt
  obtain ⟨n, hn, hmove⟩ := hmoves (by omega) (by omega)
  obtain rfl : n = 65280 + v.toNat := by omega
  exact hrow.trans hmove

/-! ### Ready after a `WR` (R183) -/

/-- Under the table of R100 every `WR` that completes has run a write destination to its end (R94). -/
theorem exec_wr_ready {s t : State} {m : Mode} {idx : Nibble} {v : Byte} (hs : diskMode s = some m)
    (h : exec (.wr idx v) s = .next t) : t.ready = !t.dead := by
  rcases nibble_eq_of_lt_numRegs (lt_numRegs_of_exec_wr h) with rfl | rfl
  · rw [exec_wr_zero hs] at h
    exact (dataHandler_effect h).ready_eq
  · rw [exec_wr_one hs] at h
    exact diskModeSelect_ready h

end Sys2Proof.Machine

open Sys2Proof Sys2Proof.Machine

/-- Settles O35: the read returns what `reg[0]` held, a prefetched byte or a stored one, and prefetches the byte after
the cursor, which a write at the cursor does not reach. -/
theorem readWriteAsymmetry : Obligations.ReadWriteAsymmetry := by
  refine ⟨fun s hs hrs hpos hr => ⟨_, exec_rd_data hs hrs hr hpos, rfl, rfl, rfl, rfl⟩,
    fun s v hs hrs hpos hwf => ?_⟩
  have hnext : memRead (memWrite s.img s.diskPos v) (s.diskPos + 2) = memRead s.img (s.diskPos + 2) := by
    rw [memRead_memWrite hwf, if_neg (by omega)]
  rw [runList, exec_wr_data hs (by omega), andThen_next, runList, exec_rd_data (r := v), andThen_next]
  · exact ⟨_, rfl, rfl, rfl, congrArg Cell.holds hnext⟩
  · exact hs
  · exact hrs
  · rfl
  · exact hpos

/-- Settles O36: 65535 is the last cursor that a write has a byte at, and the first that a read has none after. -/
theorem sentinelBehaviour : Obligations.SentinelBehaviour := by
  refine ⟨fun s v hs hpos hwf => ?_, fun s v hs hpos => exec_wr_data_sentinel hs hpos v,
    fun s v hs hpos hv => exec_wr_seek_sentinel_dies hs hpos hv,
    fun s v hs hpos hv => exec_wr_seek_sentinel_moves hs hpos hv,
    fun s hs hpos => recordOf_exec_rd_data hs hpos,
    fun s m hs hpos => ⟨fun hm => ?_, fun hm => ?_⟩⟩
  · rw [exec_wr_data hs hpos.le, hpos]
    exact ⟨_, rfl, fun a => memRead_memWrite hwf a, rfl⟩
  · obtain ⟨-, hrow, -, hfault, -⟩ := selectDataEchoesByte s m hs
    rw [hrow, hfault hm hpos]
    rfl
  · obtain ⟨-, hrow, -, hfault, -⟩ := selectSectorEchoesHighByte s m hs
    rw [hrow, hfault hm hpos]
    rfl

/-- Settles O58: `RDY` returns the ready that the `WR` left. -/
theorem readyAfterWrite : Obligations.ReadyAfterWrite :=
  fun _ _ _ _ _ hs h => ⟨_, rfl, congrArg (fun b => some (Reply.bit b)) (exec_wr_ready hs h)⟩

/-- Settles O11: the personality is read for the bindings alone, and an image with no entry reads as 0 everywhere. -/
theorem resetValues : Obligations.ResetValues := by
  intro p
  cases p with
  | disk =>
    exact ⟨rfl, fun _ => ⟨rfl, rfl, rfl, rfl⟩, nofun, rfl, rfl, rfl, rfl, fun _ => rfl, rfl, rfl, rfl, rfl, rfl, rfl,
      rfl⟩
  | output =>
    exact ⟨rfl, nofun, fun _ => ⟨rfl, rfl, rfl, rfl⟩, rfl, rfl, rfl, rfl, fun _ => rfl, rfl, rfl, rfl, rfl, rfl, rfl,
      rfl⟩

end
